-- ==== Sys2Proof/Word.lean ====
section
/-! DEFINITION. The words of the PDP-11/40: bytes, 16-bit words, 18-bit bus addresses. -/

namespace Sys2Proof

/-- An 8-bit byte (00 R5, 10 R36). -/
abbrev Byte := BitVec 8

/-- A 16-bit word: a register, a memory word, a virtual address (00 R5, 10 R20, 20 R50). -/
abbrev Word := BitVec 16

/-- A 32-bit long word, held in a register pair only (10 R36, R39). -/
abbrev Long := BitVec 32

/-- An 18-bit physical ("bus") address (20 R51). -/
abbrev PhysAddr := BitVec 18

end Sys2Proof
end

