-- ==== Sys2Proof/Machine/Names.lean ====
section
/-! DEFINITION. The names of the machine: its modes, its run states, interrupt requests, the registers with a bus address. -/

namespace Sys2Proof.Machine

/-- The two operation modes (60 R259). -/
inductive Mode where
  | kernel
  | user
deriving DecidableEq, Repr

/-- The run states of the processor (10 R35, 60 R258). -/
inductive RunState where
  | running
  | waiting
  | halted
deriving DecidableEq, Repr

/-- An interrupt request: the device's bus request number and its vector (60 R250). -/
structure Request where
  /-- BR, 1 to 7 -/
  br : BitVec 3
  /-- the address of the vector, a multiple of 4 below 0400 -/
  vector : Word
deriving DecidableEq, Repr

/-- The registers of this hardware that have a bus address (20 R64); `switches` is the pair SR and DR at 0777570. -/
inductive IoReg where
  | pdr (mode : Mode) (page : BitVec 3)
  | par (mode : Mode) (page : BitVec 3)
  | switches
  | mmr0
  | mmr2
  | psw
deriving DecidableEq, Repr

end Sys2Proof.Machine
end

