-- ==== Sys2Proof/Config.lean ====
section
/-! DEFINITION. What the platform fixes (92, table of parameters) and the values the spec leaves open. -/

namespace Sys2Proof

/-- Parameter BYTE_REG_DEST (00 R7, 10 R37): what a byte instruction other than `movb` writes into a register. -/
inductive ByteRegDest where
  | signExtendAll
  | movbOnly
deriving DecidableEq, Repr

/-- Parameter MMU_BOUNDS (00 R8, 20 R73, R74): the page-bounds test and the mapping of the upper part of a page. -/
inductive MmuBounds where
  | sourceLiteral
  | blockGranular
deriving DecidableEq, Repr

/-- Parameter ASH_ZERO_C (42 R205, R206): the carry after a shift by zero. -/
inductive AshZeroC where
  | clear
  | keep
  | draw
deriving DecidableEq, Repr

/-- Which pending interrupt requests the devices withdraw as they return to their initial state (40 R146). -/
inductive Withdrawal where
  | every
  | only (requests : List Machine.Request)
deriving DecidableEq, Repr

/-- What RESET_EFFECT leaves in a register of the I/O page (40 R146, log 5). -/
inductive RegisterAction where
  /-- the bits of `keep` stay, and the bits of `value` are set -/
  | load (keep value : Word)
  /-- any value: a free draw -/
  | anyValue
deriving DecidableEq, Repr

/-- An action of RESET_EFFECT on one register of the I/O page; DR for the pair at 0777570 (40 R146). -/
structure RegisterReset where
  reg : Machine.IoReg
  action : RegisterAction
deriving DecidableEq, Repr

/-- Parameter RESET_EFFECT (40 R146, 92): what `reset` in kernel mode does to the pending requests of DEVICES and, if the
platform says so, to the registers of the I/O page, in the order listed. The devices' own registers are no state of the model
(log 5). -/
structure ResetEffect where
  withdraw : Withdrawal
  registers : List RegisterReset
deriving DecidableEq, Repr

/-- The default RESET_EFFECT: nothing of the processor's state (40 R146). -/
def ResetEffect.none : ResetEffect := { withdraw := .only [], registers := [] }

/-- The parameters of a platform (92, table of parameters). A constant of the machine: `State` carries it in its
field `cfg`, which no step changes, so a statement about every state is one about every parameter value (log 4). -/
structure Config where
  /-- MEM_TOP (00 R6): bytes of memory fitted -/
  memTop : Nat
  byteRegDest : ByteRegDest
  mmuBounds : MmuBounds
  ashZeroC : AshZeroC
  /-- the physical byte addresses in the I/O page that DEVICES owns (00 R9) -/
  deviceAddrs : List Nat
  resetEffect : ResetEffect
deriving DecidableEq, Repr

/-- The default parameters of 92 (MEM_TOP has no default there: the value of 95 is taken, log 4). -/
def Config.default : Config where
  memTop := 0o160000
  byteRegDest := .signExtendAll
  mmuBounds := .sourceLiteral
  ashZeroC := .clear
  deviceAddrs := []
  resetEffect := .none

/-- FREE VALUE. The byte at a physical address that nothing has written (10 R40, 92 D10, 93 U3; log 1). -/
opaque Config.powerUpByte : Nat → Byte

/-- FREE VALUE. The word drawn for the n-th open word of a run (42 R204, 20 R62, 93 U7, U13; log 2). -/
opaque Config.freeWord : Nat → Word

/-- FREE VALUE. The byte drawn for the n-th open byte of a run (20 R62, 93 U13; log 2). -/
opaque Config.freeByte : Nat → Byte

/-- FREE VALUE. The bit drawn for the n-th open bit of a run (42 R204, R205, 93 U5, U7, U8; log 2). -/
opaque Config.freeBit : Nat → Bool

/-- FREE VALUE. The environment's n-th choice among requests of equal priority (60 R250, 93 U12; log 2). -/
opaque Config.freeChoice : Nat → Nat

end Sys2Proof
end

