-- ==== Sys2Proof/Syntax.lean ====
section
/-! DEFINITION. The instructions: one constructor per row of spec/opcode_table.json, in the table's order.
An instruction is its 16-bit instruction word (30 R100, R101). The in-line words that address modes 6 and 7, and modes 2 and 3 on the
PC, consume are no part of it: the machine reads them through the PC while it evaluates the operand (30 R111, R126). -/

namespace Sys2Proof

/-- The general registers by their 3-bit numbers 0 to 7 (10 R21). `sp` is R6, banked by mode (R23); `pc` is R7 (R22);
`r5` is also the frame pointer (R24). -/
inductive Reg where
  | r0 | r1 | r2 | r3 | r4 | r5 | sp | pc
deriving DecidableEq, Repr

/-- The eight address modes by their 3-bit numbers 0 to 7 (30 R110). -/
inductive AddrMode where
  | register
  | indirect
  | autoInc
  | autoIncIndirect
  | autoDec
  | autoDecIndirect
  | index
  | indexIndirect
deriving DecidableEq, Repr

/-- An operand specification `ss` or `dd`: an address mode and a register (30 R101). -/
structure Operand where
  mode : AddrMode
  reg : Reg
deriving DecidableEq, Repr

/-- The instructions (spec/opcode_table.json). `nn` is the byte or six-bit number of a code, `m` the mask of a
condition-code operation, `x` the bits an illegal block leaves free. -/
inductive Instr where
  /-- `halt`, 0000000000000000 (R141) -/
  | halt
  /-- `wait`, 0000000000000001 (R142) -/
  | wait
  /-- `rti`, 0000000000000010 (R143) -/
  | rti
  /-- `bpt`, 0000000000000011 (R144) -/
  | bpt
  /-- `iot`, 0000000000000100 (R145) -/
  | iot
  /-- `reset`, 0000000000000101 (R146) -/
  | reset
  /-- `rtt`, 0000000000000110 (R147) -/
  | rtt
  /-- illegal here: `mfpt`, 0000000000000111 (R123) -/
  | illegalMfpt
  /-- illegal codes 000010-000017, 0000000000001xxx (R123) -/
  | illegal000010 (x : BitVec 3)
  /-- illegal codes 000020-000037, 000000000001xxxx (R123) -/
  | illegal000020 (x : BitVec 4)
  /-- illegal codes 000040-000077, 00000000001xxxxx (R123) -/
  | illegal000040 (x : BitVec 5)
  /-- `jmp (mode 0)`, 0000000001000rrr (R124) -/
  | jmpMode0 (r : Reg)
  /-- `jmp`, 0000000001dddddd (R210) -/
  | jmp (dd : Operand)
  /-- `rts`, 0000000010000rrr (R211) -/
  | rts (r : Reg)
  /-- illegal codes 000210-000217, 0000000010001xxx (R123) -/
  | illegal000210 (x : BitVec 3)
  /-- illegal codes 000220-000227, 0000000010010xxx (R123) -/
  | illegal000220 (x : BitVec 3)
  /-- illegal here: `spl`, 0000000010011xxx (R123) -/
  | illegalSpl (x : BitVec 3)
  /-- `cl?`, 000000001010mmmm (R151) -/
  | clcc (m : BitVec 4)
  /-- `se?`, 000000001011mmmm (R152) -/
  | secc (m : BitVec 4)
  /-- `swab`, 0000000011dddddd (R153) -/
  | swab (dd : Operand)
  /-- `br`, 00000001nnnnnnnn (R221) -/
  | br (nn : BitVec 8)
  /-- `bne`, 00000010nnnnnnnn (R222) -/
  | bne (nn : BitVec 8)
  /-- `beq`, 00000011nnnnnnnn (R223) -/
  | beq (nn : BitVec 8)
  /-- `bge`, 00000100nnnnnnnn (R224) -/
  | bge (nn : BitVec 8)
  /-- `blt`, 00000101nnnnnnnn (R225) -/
  | blt (nn : BitVec 8)
  /-- `bgt`, 00000110nnnnnnnn (R226) -/
  | bgt (nn : BitVec 8)
  /-- `ble`, 00000111nnnnnnnn (R227) -/
  | ble (nn : BitVec 8)
  /-- `jsr (mode 0)`, 0000100rrr000ddd (R124) -/
  | jsrMode0 (r : Reg) (d : Reg)
  /-- `jsr`, 0000100rrrdddddd (R212) -/
  | jsr (r : Reg) (dd : Operand)
  /-- `clr`, 0000101000dddddd (R154) -/
  | clr (dd : Operand)
  /-- `com`, 0000101001dddddd (R156) -/
  | com (dd : Operand)
  /-- `inc`, 0000101010dddddd (R158) -/
  | inc (dd : Operand)
  /-- `dec`, 0000101011dddddd (R160) -/
  | dec (dd : Operand)
  /-- `neg`, 0000101100dddddd (R162) -/
  | neg (dd : Operand)
  /-- `adc`, 0000101101dddddd (R164) -/
  | adc (dd : Operand)
  /-- `sbc`, 0000101110dddddd (R166) -/
  | sbc (dd : Operand)
  /-- `tst`, 0000101111dddddd (R168) -/
  | tst (dd : Operand)
  /-- `ror`, 0000110000dddddd (R170) -/
  | ror (dd : Operand)
  /-- `rol`, 0000110001dddddd (R172) -/
  | rol (dd : Operand)
  /-- `asr`, 0000110010dddddd (R174) -/
  | asr (dd : Operand)
  /-- `asl`, 0000110011dddddd (R176) -/
  | asl (dd : Operand)
  /-- `mark`, 0000110100nnnnnn (R213) -/
  | mark (nn : BitVec 6)
  /-- `mfpi`, 0000110101ssssss (R178) -/
  | mfpi (ss : Operand)
  /-- `mtpi`, 0000110110dddddd (R179) -/
  | mtpi (dd : Operand)
  /-- `sxt`, 0000110111dddddd (R180) -/
  | sxt (dd : Operand)
  /-- illegal here: `csm`, 0000111000xxxxxx (R123) -/
  | illegalCsm (x : BitVec 6)
  /-- illegal codes 007100-007177, 0000111001xxxxxx (R123) -/
  | illegal007100 (x : BitVec 6)
  /-- illegal here: `tstset`, 0000111010xxxxxx (R123) -/
  | illegalTstset (x : BitVec 6)
  /-- illegal here: `wrtlck`, 0000111011xxxxxx (R123) -/
  | illegalWrtlck (x : BitVec 6)
  /-- illegal codes 007400-007777, 00001111xxxxxxxx (R123) -/
  | illegal007400 (x : BitVec 8)
  /-- `mov`, 0001ssssssdddddd (R191) -/
  | mov (ss : Operand) (dd : Operand)
  /-- `cmp`, 0010ssssssdddddd (R193) -/
  | cmp (ss : Operand) (dd : Operand)
  /-- `bit`, 0011ssssssdddddd (R195) -/
  | bit (ss : Operand) (dd : Operand)
  /-- `bic`, 0100ssssssdddddd (R197) -/
  | bic (ss : Operand) (dd : Operand)
  /-- `bis`, 0101ssssssdddddd (R199) -/
  | bis (ss : Operand) (dd : Operand)
  /-- `add`, 0110ssssssdddddd (R201) -/
  | add (ss : Operand) (dd : Operand)
  /-- `mul`, 0111000rrrssssss (R203) -/
  | mul (r : Reg) (ss : Operand)
  /-- `div`, 0111001rrrssssss (R204) -/
  | div (r : Reg) (ss : Operand)
  /-- `ash`, 0111010rrrssssss (R205) -/
  | ash (r : Reg) (ss : Operand)
  /-- `ashc`, 0111011rrrssssss (R206) -/
  | ashc (r : Reg) (ss : Operand)
  /-- `xor`, 0111100rrrdddddd (R207) -/
  | xor (r : Reg) (dd : Operand)
  /-- illegal here: `FIS`, 0111101xxxxxxxxx (R123) -/
  | illegalFis (x : BitVec 9)
  /-- illegal here: `CIS`, 0111110xxxxxxxxx (R123) -/
  | illegalCis (x : BitVec 9)
  /-- `sob`, 0111111rrrnnnnnn (R214) -/
  | sob (r : Reg) (nn : BitVec 6)
  /-- `bpl`, 10000000nnnnnnnn (R228) -/
  | bpl (nn : BitVec 8)
  /-- `bmi`, 10000001nnnnnnnn (R229) -/
  | bmi (nn : BitVec 8)
  /-- `bhi`, 10000010nnnnnnnn (R230) -/
  | bhi (nn : BitVec 8)
  /-- `blos`, 10000011nnnnnnnn (R231) -/
  | blos (nn : BitVec 8)
  /-- `bvc`, 10000100nnnnnnnn (R232) -/
  | bvc (nn : BitVec 8)
  /-- `bvs`, 10000101nnnnnnnn (R233) -/
  | bvs (nn : BitVec 8)
  /-- `bcc`, 10000110nnnnnnnn (R234) -/
  | bcc (nn : BitVec 8)
  /-- `bcs`, 10000111nnnnnnnn (R235) -/
  | bcs (nn : BitVec 8)
  /-- `emt`, 10001000nnnnnnnn (R148) -/
  | emt (nn : BitVec 8)
  /-- `sys`, 10001001nnnnnnnn (R149) -/
  | sys (nn : BitVec 8)
  /-- `clrb`, 1000101000dddddd (R155) -/
  | clrb (dd : Operand)
  /-- `comb`, 1000101001dddddd (R157) -/
  | comb (dd : Operand)
  /-- `incb`, 1000101010dddddd (R159) -/
  | incb (dd : Operand)
  /-- `decb`, 1000101011dddddd (R161) -/
  | decb (dd : Operand)
  /-- `negb`, 1000101100dddddd (R163) -/
  | negb (dd : Operand)
  /-- `adcb`, 1000101101dddddd (R165) -/
  | adcb (dd : Operand)
  /-- `sbcb`, 1000101110dddddd (R167) -/
  | sbcb (dd : Operand)
  /-- `tstb`, 1000101111dddddd (R169) -/
  | tstb (dd : Operand)
  /-- `rorb`, 1000110000dddddd (R171) -/
  | rorb (dd : Operand)
  /-- `rolb`, 1000110001dddddd (R173) -/
  | rolb (dd : Operand)
  /-- `asrb`, 1000110010dddddd (R175) -/
  | asrb (dd : Operand)
  /-- `aslb`, 1000110011dddddd (R177) -/
  | aslb (dd : Operand)
  /-- illegal here: `mtps`, 1000110100xxxxxx (R123) -/
  | illegalMtps (x : BitVec 6)
  /-- illegal here: `mfpd`, 1000110101xxxxxx (R123) -/
  | illegalMfpd (x : BitVec 6)
  /-- illegal here: `mtpd`, 1000110110xxxxxx (R123) -/
  | illegalMtpd (x : BitVec 6)
  /-- illegal here: `mfps`, 1000110111xxxxxx (R123) -/
  | illegalMfps (x : BitVec 6)
  /-- illegal codes 107000-107777, 1000111xxxxxxxxx (R123) -/
  | illegal107000 (x : BitVec 9)
  /-- `movb`, 1001ssssssdddddd (R192) -/
  | movb (ss : Operand) (dd : Operand)
  /-- `cmpb`, 1010ssssssdddddd (R194) -/
  | cmpb (ss : Operand) (dd : Operand)
  /-- `bitb`, 1011ssssssdddddd (R196) -/
  | bitb (ss : Operand) (dd : Operand)
  /-- `bicb`, 1100ssssssdddddd (R198) -/
  | bicb (ss : Operand) (dd : Operand)
  /-- `bisb`, 1101ssssssdddddd (R200) -/
  | bisb (ss : Operand) (dd : Operand)
  /-- `sub`, 1110ssssssdddddd (R202) -/
  | sub (ss : Operand) (dd : Operand)
  /-- illegal here: `FP11`, 1111xxxxxxxxxxxx (R123) -/
  | illegalFp11 (x : BitVec 12)
deriving DecidableEq, Repr

end Sys2Proof
end

