-- ==== Sys2Proof/WellFormed.lean ====
section
/-! DEFINITION. Which terms of `Instr` stand for instruction words. The fields' types already have their widths; what is left is that
`jmp` and `jsr` name no register as destination (30 R124): those codes are the rows `jmp (mode 0)` and `jsr (mode 0)`. -/

namespace Sys2Proof

/-- The instruction is one the decoder can answer (30 R121, R124). -/
def Instr.wellFormed : Instr → Bool
  | .halt => true
  | .wait => true
  | .rti => true
  | .bpt => true
  | .iot => true
  | .reset => true
  | .rtt => true
  | .illegalMfpt => true
  | .illegal000010 _ => true
  | .illegal000020 _ => true
  | .illegal000040 _ => true
  | .jmpMode0 _ => true
  | .jmp dd => dd.mode != .register
  | .rts _ => true
  | .illegal000210 _ => true
  | .illegal000220 _ => true
  | .illegalSpl _ => true
  | .clcc _ => true
  | .secc _ => true
  | .swab _ => true
  | .br _ => true
  | .bne _ => true
  | .beq _ => true
  | .bge _ => true
  | .blt _ => true
  | .bgt _ => true
  | .ble _ => true
  | .jsrMode0 _ _ => true
  | .jsr _ dd => dd.mode != .register
  | .clr _ => true
  | .com _ => true
  | .inc _ => true
  | .dec _ => true
  | .neg _ => true
  | .adc _ => true
  | .sbc _ => true
  | .tst _ => true
  | .ror _ => true
  | .rol _ => true
  | .asr _ => true
  | .asl _ => true
  | .mark _ => true
  | .mfpi _ => true
  | .mtpi _ => true
  | .sxt _ => true
  | .illegalCsm _ => true
  | .illegal007100 _ => true
  | .illegalTstset _ => true
  | .illegalWrtlck _ => true
  | .illegal007400 _ => true
  | .mov _ _ => true
  | .cmp _ _ => true
  | .bit _ _ => true
  | .bic _ _ => true
  | .bis _ _ => true
  | .add _ _ => true
  | .mul _ _ => true
  | .div _ _ => true
  | .ash _ _ => true
  | .ashc _ _ => true
  | .xor _ _ => true
  | .illegalFis _ => true
  | .illegalCis _ => true
  | .sob _ _ => true
  | .bpl _ => true
  | .bmi _ => true
  | .bhi _ => true
  | .blos _ => true
  | .bvc _ => true
  | .bvs _ => true
  | .bcc _ => true
  | .bcs _ => true
  | .emt _ => true
  | .sys _ => true
  | .clrb _ => true
  | .comb _ => true
  | .incb _ => true
  | .decb _ => true
  | .negb _ => true
  | .adcb _ => true
  | .sbcb _ => true
  | .tstb _ => true
  | .rorb _ => true
  | .rolb _ => true
  | .asrb _ => true
  | .aslb _ => true
  | .illegalMtps _ => true
  | .illegalMfpd _ => true
  | .illegalMtpd _ => true
  | .illegalMfps _ => true
  | .illegal107000 _ => true
  | .movb _ _ => true
  | .cmpb _ _ => true
  | .bitb _ _ => true
  | .bicb _ _ => true
  | .bisb _ _ => true
  | .sub _ _ => true
  | .illegalFp11 _ => true

end Sys2Proof
end

