-- ==== Sys2Proof/Decode.lean ====
section
/-! DEFINITION. Decoding and encoding of the instruction word. The decoder is the opcode table row by row, mask and match, first match
(30 R121: the table is the normative form); the encoder is written from the instruction formats (30 R102 to R109) and the code of
each instruction's rule. -/

namespace Sys2Proof

/-! ## Bytes of a word -/

/-- The byte at the even address of a word (20 R54). -/
def lowByte (w : Word) : Byte := w.extractLsb' 0 8

/-- The byte at the odd address of a word (20 R54). -/
def highByte (w : Word) : Byte := w.extractLsb' 8 8

/-- The word of two bytes (20 R54). -/
def wordOf (high low : Byte) : Word := high.setWidth 16 <<< 8 ||| low.setWidth 16

/-! ## Fields -/

/-- The register with a given 3-bit number (10 R21). -/
def Reg.ofBits (b : BitVec 3) : Reg :=
  match b with
  | 0 => .r0
  | 1 => .r1
  | 2 => .r2
  | 3 => .r3
  | 4 => .r4
  | 5 => .r5
  | 6 => .sp
  | 7 => .pc

/-- The 3-bit number of a register (10 R21). -/
def Reg.bits : Reg → BitVec 3
  | .r0 => 0
  | .r1 => 1
  | .r2 => 2
  | .r3 => 3
  | .r4 => 4
  | .r5 => 5
  | .sp => 6
  | .pc => 7

/-- The address mode with a given 3-bit number (30 R110). -/
def AddrMode.ofBits (b : BitVec 3) : AddrMode :=
  match b with
  | 0 => .register
  | 1 => .indirect
  | 2 => .autoInc
  | 3 => .autoIncIndirect
  | 4 => .autoDec
  | 5 => .autoDecIndirect
  | 6 => .index
  | 7 => .indexIndirect

/-- The 3-bit number of an address mode (30 R110). -/
def AddrMode.bits : AddrMode → BitVec 3
  | .register => 0
  | .indirect => 1
  | .autoInc => 2
  | .autoIncIndirect => 3
  | .autoDec => 4
  | .autoDecIndirect => 5
  | .index => 6
  | .indexIndirect => 7

/-- A 6-bit operand specification: bits 5:3 the mode, bits 2:0 the register (30 R101). -/
def Operand.ofBits (b : BitVec 6) : Operand :=
  ⟨.ofBits (b.extractLsb' 3 3), .ofBits (b.extractLsb' 0 3)⟩

/-- The six bits of an operand specification (30 R101). -/
def Operand.bits (o : Operand) : BitVec 6 :=
  o.mode.bits.setWidth 6 <<< 3 ||| o.reg.bits.setWidth 6

/-- The register field of an instruction word whose lowest bit is `lo`. -/
def regAt (w : Word) (lo : Nat) : Reg :=
  .ofBits (w.extractLsb' lo 3)

/-- The operand specification of an instruction word whose lowest bit is `lo`. -/
def operandAt (w : Word) (lo : Nat) : Operand :=
  .ofBits (w.extractLsb' lo 6)

/-! ## The opcode table -/

/-- A row of spec/opcode_table.json: a word `w` with `w &&& mask = pattern` is read by `build`. -/
structure OpRow where
  mask : Word
  pattern : Word
  build : Word → Instr

/-- The row reads the word (30 R121). -/
def OpRow.reads (row : OpRow) (w : Word) : Bool :=
  w &&& row.mask == row.pattern

/-- Rows 1 to 20 of spec/opcode_table.json: halt to the condition-code operations and `swab` (30 R121). -/
def opRowsSpecial : List OpRow := [
  ⟨0o177777#16, 0o000000#16, fun _ => .halt⟩,
  ⟨0o177777#16, 0o000001#16, fun _ => .wait⟩,
  ⟨0o177777#16, 0o000002#16, fun _ => .rti⟩,
  ⟨0o177777#16, 0o000003#16, fun _ => .bpt⟩,
  ⟨0o177777#16, 0o000004#16, fun _ => .iot⟩,
  ⟨0o177777#16, 0o000005#16, fun _ => .reset⟩,
  ⟨0o177777#16, 0o000006#16, fun _ => .rtt⟩,
  ⟨0o177777#16, 0o000007#16, fun _ => .illegalMfpt⟩,
  ⟨0o177770#16, 0o000010#16, fun w => .illegal000010 (w.extractLsb' 0 3)⟩,
  ⟨0o177760#16, 0o000020#16, fun w => .illegal000020 (w.extractLsb' 0 4)⟩,
  ⟨0o177740#16, 0o000040#16, fun w => .illegal000040 (w.extractLsb' 0 5)⟩,
  ⟨0o177770#16, 0o000100#16, fun w => .jmpMode0 (regAt w 0)⟩,
  ⟨0o177700#16, 0o000100#16, fun w => .jmp (operandAt w 0)⟩,
  ⟨0o177770#16, 0o000200#16, fun w => .rts (regAt w 0)⟩,
  ⟨0o177770#16, 0o000210#16, fun w => .illegal000210 (w.extractLsb' 0 3)⟩,
  ⟨0o177770#16, 0o000220#16, fun w => .illegal000220 (w.extractLsb' 0 3)⟩,
  ⟨0o177770#16, 0o000230#16, fun w => .illegalSpl (w.extractLsb' 0 3)⟩,
  ⟨0o177760#16, 0o000240#16, fun w => .clcc (w.extractLsb' 0 4)⟩,
  ⟨0o177760#16, 0o000260#16, fun w => .secc (w.extractLsb' 0 4)⟩,
  ⟨0o177700#16, 0o000300#16, fun w => .swab (operandAt w 0)⟩]

/-- Rows 21 to 29 of spec/opcode_table.json: the branches with bit 15 clear, and `jsr`. -/
def opRowsBranchLow : List OpRow := [
  ⟨0o177400#16, 0o000400#16, fun w => .br (w.extractLsb' 0 8)⟩,
  ⟨0o177400#16, 0o001000#16, fun w => .bne (w.extractLsb' 0 8)⟩,
  ⟨0o177400#16, 0o001400#16, fun w => .beq (w.extractLsb' 0 8)⟩,
  ⟨0o177400#16, 0o002000#16, fun w => .bge (w.extractLsb' 0 8)⟩,
  ⟨0o177400#16, 0o002400#16, fun w => .blt (w.extractLsb' 0 8)⟩,
  ⟨0o177400#16, 0o003000#16, fun w => .bgt (w.extractLsb' 0 8)⟩,
  ⟨0o177400#16, 0o003400#16, fun w => .ble (w.extractLsb' 0 8)⟩,
  ⟨0o177070#16, 0o004000#16, fun w => .jsrMode0 (regAt w 6) (regAt w 0)⟩,
  ⟨0o177000#16, 0o004000#16, fun w => .jsr (regAt w 6) (operandAt w 0)⟩]

/-- Rows 30 to 50 of spec/opcode_table.json: the single-operand words, `mark`, `mfpi`, `mtpi`, `sxt` and the blocks 0070 to 0077. -/
def opRowsSingle : List OpRow := [
  ⟨0o177700#16, 0o005000#16, fun w => .clr (operandAt w 0)⟩,
  ⟨0o177700#16, 0o005100#16, fun w => .com (operandAt w 0)⟩,
  ⟨0o177700#16, 0o005200#16, fun w => .inc (operandAt w 0)⟩,
  ⟨0o177700#16, 0o005300#16, fun w => .dec (operandAt w 0)⟩,
  ⟨0o177700#16, 0o005400#16, fun w => .neg (operandAt w 0)⟩,
  ⟨0o177700#16, 0o005500#16, fun w => .adc (operandAt w 0)⟩,
  ⟨0o177700#16, 0o005600#16, fun w => .sbc (operandAt w 0)⟩,
  ⟨0o177700#16, 0o005700#16, fun w => .tst (operandAt w 0)⟩,
  ⟨0o177700#16, 0o006000#16, fun w => .ror (operandAt w 0)⟩,
  ⟨0o177700#16, 0o006100#16, fun w => .rol (operandAt w 0)⟩,
  ⟨0o177700#16, 0o006200#16, fun w => .asr (operandAt w 0)⟩,
  ⟨0o177700#16, 0o006300#16, fun w => .asl (operandAt w 0)⟩,
  ⟨0o177700#16, 0o006400#16, fun w => .mark (w.extractLsb' 0 6)⟩,
  ⟨0o177700#16, 0o006500#16, fun w => .mfpi (operandAt w 0)⟩,
  ⟨0o177700#16, 0o006600#16, fun w => .mtpi (operandAt w 0)⟩,
  ⟨0o177700#16, 0o006700#16, fun w => .sxt (operandAt w 0)⟩,
  ⟨0o177700#16, 0o007000#16, fun w => .illegalCsm (w.extractLsb' 0 6)⟩,
  ⟨0o177700#16, 0o007100#16, fun w => .illegal007100 (w.extractLsb' 0 6)⟩,
  ⟨0o177700#16, 0o007200#16, fun w => .illegalTstset (w.extractLsb' 0 6)⟩,
  ⟨0o177700#16, 0o007300#16, fun w => .illegalWrtlck (w.extractLsb' 0 6)⟩,
  ⟨0o177400#16, 0o007400#16, fun w => .illegal007400 (w.extractLsb' 0 8)⟩]

/-- Rows 51 to 64 of spec/opcode_table.json: the double-operand words, EIS, `xor`, FIS, CIS, `sob`. -/
def opRowsDouble : List OpRow := [
  ⟨0o170000#16, 0o010000#16, fun w => .mov (operandAt w 6) (operandAt w 0)⟩,
  ⟨0o170000#16, 0o020000#16, fun w => .cmp (operandAt w 6) (operandAt w 0)⟩,
  ⟨0o170000#16, 0o030000#16, fun w => .bit (operandAt w 6) (operandAt w 0)⟩,
  ⟨0o170000#16, 0o040000#16, fun w => .bic (operandAt w 6) (operandAt w 0)⟩,
  ⟨0o170000#16, 0o050000#16, fun w => .bis (operandAt w 6) (operandAt w 0)⟩,
  ⟨0o170000#16, 0o060000#16, fun w => .add (operandAt w 6) (operandAt w 0)⟩,
  ⟨0o177000#16, 0o070000#16, fun w => .mul (regAt w 6) (operandAt w 0)⟩,
  ⟨0o177000#16, 0o071000#16, fun w => .div (regAt w 6) (operandAt w 0)⟩,
  ⟨0o177000#16, 0o072000#16, fun w => .ash (regAt w 6) (operandAt w 0)⟩,
  ⟨0o177000#16, 0o073000#16, fun w => .ashc (regAt w 6) (operandAt w 0)⟩,
  ⟨0o177000#16, 0o074000#16, fun w => .xor (regAt w 6) (operandAt w 0)⟩,
  ⟨0o177000#16, 0o075000#16, fun w => .illegalFis (w.extractLsb' 0 9)⟩,
  ⟨0o177000#16, 0o076000#16, fun w => .illegalCis (w.extractLsb' 0 9)⟩,
  ⟨0o177000#16, 0o077000#16, fun w => .sob (regAt w 6) (w.extractLsb' 0 6)⟩]

/-- Rows 65 to 74 of spec/opcode_table.json: the branches with bit 15 set, `emt`, `sys`. -/
def opRowsBranchHigh : List OpRow := [
  ⟨0o177400#16, 0o100000#16, fun w => .bpl (w.extractLsb' 0 8)⟩,
  ⟨0o177400#16, 0o100400#16, fun w => .bmi (w.extractLsb' 0 8)⟩,
  ⟨0o177400#16, 0o101000#16, fun w => .bhi (w.extractLsb' 0 8)⟩,
  ⟨0o177400#16, 0o101400#16, fun w => .blos (w.extractLsb' 0 8)⟩,
  ⟨0o177400#16, 0o102000#16, fun w => .bvc (w.extractLsb' 0 8)⟩,
  ⟨0o177400#16, 0o102400#16, fun w => .bvs (w.extractLsb' 0 8)⟩,
  ⟨0o177400#16, 0o103000#16, fun w => .bcc (w.extractLsb' 0 8)⟩,
  ⟨0o177400#16, 0o103400#16, fun w => .bcs (w.extractLsb' 0 8)⟩,
  ⟨0o177400#16, 0o104000#16, fun w => .emt (w.extractLsb' 0 8)⟩,
  ⟨0o177400#16, 0o104400#16, fun w => .sys (w.extractLsb' 0 8)⟩]

/-- Rows 75 to 98 of spec/opcode_table.json: the byte halves and the rest of the codes with bit 15 set. -/
def opRowsByte : List OpRow := [
  ⟨0o177700#16, 0o105000#16, fun w => .clrb (operandAt w 0)⟩,
  ⟨0o177700#16, 0o105100#16, fun w => .comb (operandAt w 0)⟩,
  ⟨0o177700#16, 0o105200#16, fun w => .incb (operandAt w 0)⟩,
  ⟨0o177700#16, 0o105300#16, fun w => .decb (operandAt w 0)⟩,
  ⟨0o177700#16, 0o105400#16, fun w => .negb (operandAt w 0)⟩,
  ⟨0o177700#16, 0o105500#16, fun w => .adcb (operandAt w 0)⟩,
  ⟨0o177700#16, 0o105600#16, fun w => .sbcb (operandAt w 0)⟩,
  ⟨0o177700#16, 0o105700#16, fun w => .tstb (operandAt w 0)⟩,
  ⟨0o177700#16, 0o106000#16, fun w => .rorb (operandAt w 0)⟩,
  ⟨0o177700#16, 0o106100#16, fun w => .rolb (operandAt w 0)⟩,
  ⟨0o177700#16, 0o106200#16, fun w => .asrb (operandAt w 0)⟩,
  ⟨0o177700#16, 0o106300#16, fun w => .aslb (operandAt w 0)⟩,
  ⟨0o177700#16, 0o106400#16, fun w => .illegalMtps (w.extractLsb' 0 6)⟩,
  ⟨0o177700#16, 0o106500#16, fun w => .illegalMfpd (w.extractLsb' 0 6)⟩,
  ⟨0o177700#16, 0o106600#16, fun w => .illegalMtpd (w.extractLsb' 0 6)⟩,
  ⟨0o177700#16, 0o106700#16, fun w => .illegalMfps (w.extractLsb' 0 6)⟩,
  ⟨0o177000#16, 0o107000#16, fun w => .illegal107000 (w.extractLsb' 0 9)⟩,
  ⟨0o170000#16, 0o110000#16, fun w => .movb (operandAt w 6) (operandAt w 0)⟩,
  ⟨0o170000#16, 0o120000#16, fun w => .cmpb (operandAt w 6) (operandAt w 0)⟩,
  ⟨0o170000#16, 0o130000#16, fun w => .bitb (operandAt w 6) (operandAt w 0)⟩,
  ⟨0o170000#16, 0o140000#16, fun w => .bicb (operandAt w 6) (operandAt w 0)⟩,
  ⟨0o170000#16, 0o150000#16, fun w => .bisb (operandAt w 6) (operandAt w 0)⟩,
  ⟨0o170000#16, 0o160000#16, fun w => .sub (operandAt w 6) (operandAt w 0)⟩,
  ⟨0o170000#16, 0o170000#16, fun w => .illegalFp11 (w.extractLsb' 0 12)⟩]

/-- The opcode table, in its order (30 R121). -/
def opRows : List OpRow :=
  opRowsSpecial ++ opRowsBranchLow ++ opRowsSingle ++ opRowsDouble ++ opRowsBranchHigh ++ opRowsByte

/-- Decode an instruction word: the first row of the table that reads it (30 R121). `none` where no row does, which
no word reaches (30 R120: the codes cover all 65536). -/
def decodeWord (w : Word) : Option Instr :=
  (opRows.find? (·.reads w)).map (·.build w)

/-! ## Bytes -/

/-- Why the decoder answers no instruction. -/
inductive DecodeError where
  /-- fewer than the two bytes of an instruction word -/
  | truncated
  /-- no row of the table reads the word -/
  | unassigned (w : Word)
deriving DecidableEq, Repr

/-- Decode the instruction word at the head of a list of bytes, low byte first (20 R54), and give the bytes that follow
it: the in-line words, if the instruction has any, stand there (30 R100). -/
def decodeBytes : List Byte → Except DecodeError (Instr × List Byte)
  | lo :: hi :: rest =>
    match decodeWord (wordOf hi lo) with
    | some i => .ok (i, rest)
    | none => .error (.unassigned (wordOf hi lo))
  | _ => .error .truncated

/-- The number of bytes of the longest instruction: an instruction word and two in-line words (30 R100). -/
def maxInstrBytes : Nat := 6

/-- The bytes of an instruction whose bits are `w`, of which the table gives `nbits` and the rest are zero, as the machine
stores them: word by word, the low byte of a word first (20 R54). -/
def tableBytes (nbits w : Nat) : List Byte :=
  (List.range maxInstrBytes).map fun k => BitVec.ofNat 8 ((w % 2 ^ nbits) / 2 ^ (8 * k))

/-- The instruction the decoder reads from a table word. -/
def decodeTableWord (nbits w : Nat) : Option Instr :=
  match decodeBytes (tableBytes nbits w) with
  | .ok (i, _) => some i
  | .error _ => none

/-! ## The encoder -/

/-- A field of an instruction word, its lowest bit at `lo`. -/
def field {n : Nat} (x : BitVec n) (lo : Nat) : Word := x.setWidth 16 <<< lo

/-- The instruction word of an instruction (30 R102 to R109 and the Encoding line of each instruction's rule). -/
def encode : Instr → Word
  | .halt => 0b0000000000000000#16
  | .wait => 0b0000000000000001#16
  | .rti => 0b0000000000000010#16
  | .bpt => 0b0000000000000011#16
  | .iot => 0b0000000000000100#16
  | .reset => 0b0000000000000101#16
  | .rtt => 0b0000000000000110#16
  | .illegalMfpt => 0b0000000000000111#16
  | .illegal000010 x => 0b0000000000001000#16 ||| field x 0
  | .illegal000020 x => 0b0000000000010000#16 ||| field x 0
  | .illegal000040 x => 0b0000000000100000#16 ||| field x 0
  | .jmpMode0 r => 0b0000000001000000#16 ||| field r.bits 0
  | .jmp dd => 0b0000000001000000#16 ||| field dd.bits 0
  | .rts r => 0b0000000010000000#16 ||| field r.bits 0
  | .illegal000210 x => 0b0000000010001000#16 ||| field x 0
  | .illegal000220 x => 0b0000000010010000#16 ||| field x 0
  | .illegalSpl x => 0b0000000010011000#16 ||| field x 0
  | .clcc m => 0b0000000010100000#16 ||| field m 0
  | .secc m => 0b0000000010110000#16 ||| field m 0
  | .swab dd => 0b0000000011000000#16 ||| field dd.bits 0
  | .br nn => 0b0000000100000000#16 ||| field nn 0
  | .bne nn => 0b0000001000000000#16 ||| field nn 0
  | .beq nn => 0b0000001100000000#16 ||| field nn 0
  | .bge nn => 0b0000010000000000#16 ||| field nn 0
  | .blt nn => 0b0000010100000000#16 ||| field nn 0
  | .bgt nn => 0b0000011000000000#16 ||| field nn 0
  | .ble nn => 0b0000011100000000#16 ||| field nn 0
  | .jsrMode0 r d => 0b0000100000000000#16 ||| field r.bits 6 ||| field d.bits 0
  | .jsr r dd => 0b0000100000000000#16 ||| field r.bits 6 ||| field dd.bits 0
  | .clr dd => 0b0000101000000000#16 ||| field dd.bits 0
  | .com dd => 0b0000101001000000#16 ||| field dd.bits 0
  | .inc dd => 0b0000101010000000#16 ||| field dd.bits 0
  | .dec dd => 0b0000101011000000#16 ||| field dd.bits 0
  | .neg dd => 0b0000101100000000#16 ||| field dd.bits 0
  | .adc dd => 0b0000101101000000#16 ||| field dd.bits 0
  | .sbc dd => 0b0000101110000000#16 ||| field dd.bits 0
  | .tst dd => 0b0000101111000000#16 ||| field dd.bits 0
  | .ror dd => 0b0000110000000000#16 ||| field dd.bits 0
  | .rol dd => 0b0000110001000000#16 ||| field dd.bits 0
  | .asr dd => 0b0000110010000000#16 ||| field dd.bits 0
  | .asl dd => 0b0000110011000000#16 ||| field dd.bits 0
  | .mark nn => 0b0000110100000000#16 ||| field nn 0
  | .mfpi ss => 0b0000110101000000#16 ||| field ss.bits 0
  | .mtpi dd => 0b0000110110000000#16 ||| field dd.bits 0
  | .sxt dd => 0b0000110111000000#16 ||| field dd.bits 0
  | .illegalCsm x => 0b0000111000000000#16 ||| field x 0
  | .illegal007100 x => 0b0000111001000000#16 ||| field x 0
  | .illegalTstset x => 0b0000111010000000#16 ||| field x 0
  | .illegalWrtlck x => 0b0000111011000000#16 ||| field x 0
  | .illegal007400 x => 0b0000111100000000#16 ||| field x 0
  | .mov ss dd => 0b0001000000000000#16 ||| field ss.bits 6 ||| field dd.bits 0
  | .cmp ss dd => 0b0010000000000000#16 ||| field ss.bits 6 ||| field dd.bits 0
  | .bit ss dd => 0b0011000000000000#16 ||| field ss.bits 6 ||| field dd.bits 0
  | .bic ss dd => 0b0100000000000000#16 ||| field ss.bits 6 ||| field dd.bits 0
  | .bis ss dd => 0b0101000000000000#16 ||| field ss.bits 6 ||| field dd.bits 0
  | .add ss dd => 0b0110000000000000#16 ||| field ss.bits 6 ||| field dd.bits 0
  | .mul r ss => 0b0111000000000000#16 ||| field r.bits 6 ||| field ss.bits 0
  | .div r ss => 0b0111001000000000#16 ||| field r.bits 6 ||| field ss.bits 0
  | .ash r ss => 0b0111010000000000#16 ||| field r.bits 6 ||| field ss.bits 0
  | .ashc r ss => 0b0111011000000000#16 ||| field r.bits 6 ||| field ss.bits 0
  | .xor r dd => 0b0111100000000000#16 ||| field r.bits 6 ||| field dd.bits 0
  | .illegalFis x => 0b0111101000000000#16 ||| field x 0
  | .illegalCis x => 0b0111110000000000#16 ||| field x 0
  | .sob r nn => 0b0111111000000000#16 ||| field r.bits 6 ||| field nn 0
  | .bpl nn => 0b1000000000000000#16 ||| field nn 0
  | .bmi nn => 0b1000000100000000#16 ||| field nn 0
  | .bhi nn => 0b1000001000000000#16 ||| field nn 0
  | .blos nn => 0b1000001100000000#16 ||| field nn 0
  | .bvc nn => 0b1000010000000000#16 ||| field nn 0
  | .bvs nn => 0b1000010100000000#16 ||| field nn 0
  | .bcc nn => 0b1000011000000000#16 ||| field nn 0
  | .bcs nn => 0b1000011100000000#16 ||| field nn 0
  | .emt nn => 0b1000100000000000#16 ||| field nn 0
  | .sys nn => 0b1000100100000000#16 ||| field nn 0
  | .clrb dd => 0b1000101000000000#16 ||| field dd.bits 0
  | .comb dd => 0b1000101001000000#16 ||| field dd.bits 0
  | .incb dd => 0b1000101010000000#16 ||| field dd.bits 0
  | .decb dd => 0b1000101011000000#16 ||| field dd.bits 0
  | .negb dd => 0b1000101100000000#16 ||| field dd.bits 0
  | .adcb dd => 0b1000101101000000#16 ||| field dd.bits 0
  | .sbcb dd => 0b1000101110000000#16 ||| field dd.bits 0
  | .tstb dd => 0b1000101111000000#16 ||| field dd.bits 0
  | .rorb dd => 0b1000110000000000#16 ||| field dd.bits 0
  | .rolb dd => 0b1000110001000000#16 ||| field dd.bits 0
  | .asrb dd => 0b1000110010000000#16 ||| field dd.bits 0
  | .aslb dd => 0b1000110011000000#16 ||| field dd.bits 0
  | .illegalMtps x => 0b1000110100000000#16 ||| field x 0
  | .illegalMfpd x => 0b1000110101000000#16 ||| field x 0
  | .illegalMtpd x => 0b1000110110000000#16 ||| field x 0
  | .illegalMfps x => 0b1000110111000000#16 ||| field x 0
  | .illegal107000 x => 0b1000111000000000#16 ||| field x 0
  | .movb ss dd => 0b1001000000000000#16 ||| field ss.bits 6 ||| field dd.bits 0
  | .cmpb ss dd => 0b1010000000000000#16 ||| field ss.bits 6 ||| field dd.bits 0
  | .bitb ss dd => 0b1011000000000000#16 ||| field ss.bits 6 ||| field dd.bits 0
  | .bicb ss dd => 0b1100000000000000#16 ||| field ss.bits 6 ||| field dd.bits 0
  | .bisb ss dd => 0b1101000000000000#16 ||| field ss.bits 6 ||| field dd.bits 0
  | .sub ss dd => 0b1110000000000000#16 ||| field ss.bits 6 ||| field dd.bits 0
  | .illegalFp11 x => 0b1111000000000000#16 ||| field x 0

/-- The two bytes of an instruction word, low byte first (20 R54). -/
def encodeBytes (i : Instr) : List Byte :=
  [lowByte (encode i), highByte (encode i)]

/-- How many in-line words an operand specification consumes (30 R126). -/
def Operand.inlineWords (o : Operand) : Nat :=
  match o.mode with
  | .index | .indexIndirect => 1
  | .autoInc | .autoIncIndirect => if o.reg = .pc then 1 else 0
  | .register | .indirect | .autoDec | .autoDecIndirect => 0

end Sys2Proof
end

