-- ==== Sys2Proof/Machine/State.lean ====
section
/-! DEFINITION. The state of the machine (10_state.md; INVENTORY.md, "State"), why it can stop, and the state after power-up. -/

namespace Sys2Proof.Machine

/-- Physical memory: the bytes something has written, by rising address (10 R41). A byte that is not listed has never been
written and stores no value; what a read of it gives is `memByte`'s to say (10 R40, log 1). -/
abbrev Memory := List Host.Cell

/-- The state of the machine: every register and every cell the spec names (10 R20 to R35, R40, 60 R266), the memory,
and the model's own `switchMoves`, `trapTaken`, `draws` and `cfg`. -/
structure State where
  /-- general registers (10 R21) -/
  r0 : Word
  r1 : Word
  r2 : Word
  r3 : Word
  r4 : Word
  /-- R5, also the frame pointer (10 R24) -/
  r5 : Word
  /-- R6 in kernel mode (10 R23) -/
  ksp : Word
  /-- R6 in user mode (10 R23) -/
  usp : Word
  /-- R7, the program counter (10 R22) -/
  pc : Word
  /-- the processor status word (10 R25) -/
  psw : Word
  /-- SR, the panel switches: what a read of 0777570 gives next (10 R33, log 3) -/
  sr : Word
  /-- MODEL'S OWN (log 3): how the operator goes on to set the switches, each setting in time for the next read of them; empty
  where they stay -/
  switchMoves : List Word
  /-- DR, the panel display (10 R33) -/
  dr : Word
  /-- MMR0 (20 R78) -/
  mmr0 : Word
  /-- MMR2 (20 R79) -/
  mmr2 : Word
  /-- the kernel page address registers (20 R71) -/
  kernelPar : Vector Word 8
  /-- the kernel page description registers (20 R72) -/
  kernelPdr : Vector Word 8
  /-- the user page address registers (20 R71) -/
  userPar : Vector Word 8
  /-- the user page description registers (20 R72) -/
  userPdr : Vector Word 8
  /-- physical memory (10 R41) -/
  mem : Memory
  /-- the pending interrupt requests (10 R35, 60 R250) -/
  pending : List Request
  /-- set by `rtt` (10 R35, 60 R256) -/
  traceInhibit : Bool
  /-- running, waiting or halted (10 R35, 60 R258) -/
  run : RunState
  /-- a kernel-mode push below 0400 was made (10 R35, 20 R67) -/
  yellowPending : Bool
  /-- the address of the first word of the instruction in progress (60 R266, 20 R83) -/
  ia : Word
  /-- MODEL'S OWN (log 11): the instruction in progress ended in a trap sequence -/
  trapTaken : Bool
  /-- MODEL'S OWN (log 2): how many free values the run has drawn -/
  draws : Nat
  /-- MODEL'S OWN (log 4): the platform's parameters, which nothing changes -/
  cfg : Config
deriving DecidableEq, Repr

/-- Where the machine stops because the spec gives no successor ("stuck"). -/
inductive Fault where
  /-- The vector fetch of a trap sequence raised an exception. Raised by `trapAt` (60 R241, 93 U9). Safe: the hardware may go on. -/
  | vectorFetchFailed
  /-- An access of a red stack trap raised an exception. Raised by `redStackTrap` (60 R248, 93 U10). Safe: the hardware may go on. -/
  | emergencyStackFailed
deriving DecidableEq, Repr

/-- What the model refuses because the spec says that a model refuses it. -/
inductive Refusal where
  /-- An instruction without a meaning. Raised by no arm of this model. Safe. -/
  | notModelled (mnemonic : String)
  /-- A write would put the reserved value 01 or 10 into CM or PM. Raised by a write of the PSW and by `rti` and `rtt` in
  kernel mode (10 R26, 92 D2, 93 U2). Safe: the hardware may go on. -/
  | reservedMode
  /-- `div` with an odd register number. Raised by `execDiv` (42 R204, 93 U6). Safe: the hardware may go on. -/
  | divOddRegister
deriving DecidableEq, Repr

/-- The machine right after power-up (10 R40, 70 R291). `sr`, `switchMoves` (log 3), `cfg` (log 4), `ia`, `trapTaken` (log 11) and `draws` (log 2)
are the model's choices. -/
def State.reset : State where
  r0 := 0
  r1 := 0
  r2 := 0
  r3 := 0
  r4 := 0
  r5 := 0
  ksp := 0
  usp := 0
  pc := 0
  psw := 0o340
  sr := 0
  switchMoves := []
  dr := 0
  mmr0 := 0
  mmr2 := 0
  kernelPar := Vector.replicate 8 0
  kernelPdr := Vector.replicate 8 0
  userPar := Vector.replicate 8 0
  userPdr := Vector.replicate 8 0
  mem := []
  pending := []
  traceInhibit := false
  run := .running
  yellowPending := false
  ia := 0
  trapTaken := false
  draws := 0
  cfg := .default

end Sys2Proof.Machine
end

