-- ==== Sys2Proof/Machine/Psw.lean ====
section
/-! DEFINITION. The fields of the processor status word, of MMR0 and of a page description register. -/

namespace Sys2Proof.Machine

/-! ## Modes -/

/-- The two bits that stand for a mode in the PSW and in MMR0 (10 R25, 20 R78). -/
def modeBits : Mode → BitVec 2
  | .kernel => 0b00
  | .user => 0b11

/-- The mode a two-bit field selects. 01 and 10 are reserved and never reached (10 R26); this function reads them as user,
as the tests of 41 R178 and R179 (`PSW.PM == 00 ? KSP : USP`) do (log 15). -/
def modeOf (b : BitVec 2) : Mode :=
  if b = 0b00 then .kernel else .user

/-- The two bits are a mode, not one of the reserved values (10 R26). -/
def modeLegal (b : BitVec 2) : Bool :=
  b == 0b00 || b == 0b11

/-! ## The processor status word (10 R25) -/

/-- CM, bits 15:14. -/
def pswCM (p : Word) : BitVec 2 := p.extractLsb' 14 2

/-- PM, bits 13:12. -/
def pswPM (p : Word) : BitVec 2 := p.extractLsb' 12 2

/-- IPL, bits 7:5. -/
def pswIPL (p : Word) : BitVec 3 := p.extractLsb' 5 3

/-- T, bit 4. -/
def pswT (p : Word) : Bool := p.getLsbD 4

/-- The condition codes (10 R30). -/
structure Flags where
  n : Bool
  z : Bool
  v : Bool
  c : Bool
deriving DecidableEq, Repr

/-- N Z V C, bits 3:0 (10 R25). -/
def pswFlags (p : Word) : Flags :=
  ⟨p.getLsbD 3, p.getLsbD 2, p.getLsbD 1, p.getLsbD 0⟩

/-- The four condition codes at their places in the PSW (10 R25). -/
def flagWord (f : Flags) : Word :=
  (if f.n then 0o10#16 else 0#16) ||| (if f.z then 0o4#16 else 0#16) ||| (if f.v then 0o2#16 else 0#16) ||| (if f.c then 0o1#16 else 0#16)

/-- The PSW with its condition codes replaced. -/
def pswWithFlags (p : Word) (f : Flags) : Word :=
  (p &&& 0o177760#16) ||| flagWord f

/-- What a read of the PSW gives: bits 11:8 read as 0 (10 R27, R32, 20 R65). -/
def pswRead (p : Word) : Word :=
  p &&& 0o170377#16

/-- A word that may be written to the PSW: neither mode field is reserved (10 R26, 20 R65). -/
def pswWritable (v : Word) : Bool :=
  modeLegal (pswCM v) && modeLegal (pswPM v)

/-- The PSW after the trap sequence has loaded it: CM kernel (00), PM the old CM, the low byte from the vector (60 R241). -/
def pswOfTrap (oldPs newPs : Word) : Word :=
  ((oldPs >>> 2) &&& 0o030000#16) ||| (newPs &&& 0o377#16)

/-- The PSW after `rti` or `rtt` in user mode: T and the condition codes from the popped word, CM, PM and IPL kept (40 R143). -/
def pswOfUserReturn (p popped : Word) : Word :=
  (p &&& 0o177740#16) ||| (popped &&& 0o37#16)

/-! ## MMR0 (20 R78) -/

/-- The bits of MMR0 that hold something: 12:10, 6:5, 3:1 and 0. -/
def mmr0Mask : Word := 0o016157

/-- The MMU is enabled, bit 0 (20 R69). -/
def mmuEnabled (mmr0 : Word) : Bool := mmr0.getLsbD 0

/-- MMR0 after a fault: the reasons, bits 12:10, are or-ed in, the mode (6:5) and the page (3:1) are overwritten (20 R83). -/
def mmr0OfFault (mmr0 : Word) (mode : Mode) (page : BitVec 3) (reasons : BitVec 3) : Word :=
  (mmr0 &&& 0o177621#16) ||| (reasons.setWidth 16 <<< 10) ||| ((modeBits mode).setWidth 16 <<< 5) ||| (page.setWidth 16 <<< 1)

/-! ## Paging registers (20 R71, R72) -/

/-- The bits of a PAR that are kept: 11:0 (20 R71). -/
def parMask : Word := 0o007777

/-- The bits of a PDR that hold something: S 14:8, C 6, U 3, W 2, R 1 (20 R72). -/
def pdrMask : Word := 0o077516

/-- The bits of a PDR that a write loads: S, U, W, R (20 R72). -/
def pdrWriteMask : Word := 0o077416

/-- S, bits 14:8. -/
def pdrS (d : Word) : BitVec 7 := d.extractLsb' 8 7

/-- C, bit 6: the page was written. -/
def pdrC (d : Word) : Bool := d.getLsbD 6

/-- U, bit 3: the upper part of the page is the valid one. -/
def pdrU (d : Word) : Bool := d.getLsbD 3

/-- W, bit 2: write permission. -/
def pdrW (d : Word) : Bool := d.getLsbD 2

/-- R, bit 1: read permission. -/
def pdrR (d : Word) : Bool := d.getLsbD 1

/-- A PDR with its bit C set (20 R76). -/
def pdrSetC (d : Word) : Word := d ||| 0o100#16

end Sys2Proof.Machine
end

