-- ==== Sys2Proof/Machine/Flags.lean ====
section
/-! DEFINITION. What instructions compute: results and condition codes (10 R30), for words and bytes alike. An operation takes the
condition codes before it and its operands. -/

namespace Sys2Proof.Machine

/-! ## One operand (41 R153 to R180) -/

/-- `swab` (41 R153): N and Z from the low byte of the result. -/
def swabOp (_ : Flags) (d : Word) : Word × Flags :=
  let r := wordOf (lowByte d) (highByte d)
  (r, ⟨(lowByte r).msb, lowByte r == 0, false, false⟩)

/-- `clr` (41 R154, R155). -/
def clrOp {w : Nat} (_ : Flags) : BitVec w × Flags := (0, ⟨false, true, false, false⟩)

/-- `com` (41 R156, R157). -/
def comOp {w : Nat} (_ : Flags) (d : BitVec w) : BitVec w × Flags :=
  (~~~d, ⟨(~~~d).msb, ~~~d == 0, false, true⟩)

/-- `inc` (41 R158, R159): C unchanged. -/
def incOp {w : Nat} (old : Flags) (d : BitVec w) : BitVec w × Flags :=
  (d + 1, ⟨(d + 1).msb, d + 1 == 0, d == BitVec.intMax w, old.c⟩)

/-- `dec` (41 R160, R161): C unchanged. -/
def decOp {w : Nat} (old : Flags) (d : BitVec w) : BitVec w × Flags :=
  (d - 1, ⟨(d - 1).msb, d - 1 == 0, d == BitVec.intMin w, old.c⟩)

/-- `neg` (41 R162, R163). -/
def negOp {w : Nat} (_ : Flags) (d : BitVec w) : BitVec w × Flags :=
  (0 - d, ⟨(0 - d).msb, 0 - d == 0, 0 - d == BitVec.intMin w, 0 - d != 0⟩)

/-- The carry as a number of the operand's width. -/
def carryIn (w : Nat) (c : Bool) : BitVec w := if c then 1 else 0

/-- `adc` (41 R164, R165). -/
def adcOp {w : Nat} (old : Flags) (d : BitVec w) : BitVec w × Flags :=
  let r := d + carryIn w old.c
  (r, ⟨r.msb, r == 0, d == BitVec.intMax w && old.c, d == BitVec.allOnes w && old.c⟩)

/-- `sbc` (41 R166, R167). -/
def sbcOp {w : Nat} (old : Flags) (d : BitVec w) : BitVec w × Flags :=
  let r := d - carryIn w old.c
  (r, ⟨r.msb, r == 0, d == BitVec.intMin w && old.c, d == 0 && old.c⟩)

/-- `tst` (41 R168, R169). -/
def tstOp {w : Nat} (_ : Flags) (d : BitVec w) : Flags := ⟨d.msb, d == 0, false, false⟩

/-- The condition codes of the one-place shifts and rotates: C the bit shifted out, V the exclusive or of the new N and
the new C (41 R170 to R177, 92 D45). -/
def shiftFlags {w : Nat} (r : BitVec w) (out : Bool) : Flags := ⟨r.msb, r == 0, r.msb != out, out⟩

/-- `ror` (41 R170, R171): the old C enters at the top. -/
def rorOp {w : Nat} (old : Flags) (d : BitVec w) : BitVec w × Flags :=
  let r := d >>> 1 ||| (if old.c then BitVec.intMin w else 0)
  (r, shiftFlags r (d.getLsbD 0))

/-- `rol` (41 R172, R173): the old C enters at the bottom. -/
def rolOp {w : Nat} (old : Flags) (d : BitVec w) : BitVec w × Flags :=
  let r := d <<< 1 ||| carryIn w old.c
  (r, shiftFlags r d.msb)

/-- `asr` (41 R174, R175): the sign is kept. -/
def asrOp {w : Nat} (_ : Flags) (d : BitVec w) : BitVec w × Flags :=
  let r := d.sshiftRight 1
  (r, shiftFlags r (d.getLsbD 0))

/-- `asl` (41 R176, R177). -/
def aslOp {w : Nat} (_ : Flags) (d : BitVec w) : BitVec w × Flags :=
  let r := d <<< 1
  (r, shiftFlags r d.msb)

/-- `sxt` (41 R180): N and C unchanged. -/
def sxtOp (old : Flags) : Word × Flags :=
  (if old.n then 0o177777 else 0, ⟨old.n, !old.n, false, old.c⟩)

/-- N and Z of a value, V cleared, C kept: `mov`, the Boolean instructions, `mfpi`, `mtpi` (41 R178, R179, 42 R191 to R200, R207). -/
def logicFlags {w : Nat} (old : Flags) (r : BitVec w) : Flags := ⟨r.msb, r == 0, false, old.c⟩

/-! ## Two operands, source then destination (42 R191 to R202, R207) -/

/-- `bit` (42 R195, R196). -/
def bitOp {w : Nat} (old : Flags) (s d : BitVec w) : Flags := logicFlags old (s &&& d)

/-- `bic` (42 R197, R198). -/
def bicOp {w : Nat} (old : Flags) (s d : BitVec w) : BitVec w × Flags := (d &&& ~~~s, logicFlags old (d &&& ~~~s))

/-- `bis` (42 R199, R200). -/
def bisOp {w : Nat} (old : Flags) (s d : BitVec w) : BitVec w × Flags := (d ||| s, logicFlags old (d ||| s))

/-- `xor` (42 R207): the register is the source. -/
def xorOp {w : Nat} (old : Flags) (s d : BitVec w) : BitVec w × Flags := (d ^^^ s, logicFlags old (d ^^^ s))

/-- The condition codes of `x - y` (10 R30, 42 R193, R202): C is the borrow. -/
def subFlags {w : Nat} (x y : BitVec w) : Flags :=
  ⟨(x - y).msb, x - y == 0, x.msb != y.msb && (x - y).msb == y.msb, decide (x < y)⟩

/-- `cmp` (42 R193, R194): source minus destination. -/
def cmpOp {w : Nat} (_ : Flags) (s d : BitVec w) : Flags := subFlags s d

/-- `add` (42 R201). -/
def addOp {w : Nat} (_ : Flags) (s d : BitVec w) : BitVec w × Flags :=
  (d + s, ⟨(d + s).msb, d + s == 0, d.msb == s.msb && (d + s).msb != d.msb, decide (2 ^ w ≤ d.toNat + s.toNat)⟩)

/-- `sub` (42 R202): destination minus source. -/
def subOp {w : Nat} (_ : Flags) (s d : BitVec w) : BitVec w × Flags :=
  (d - s, subFlags d s)

/-! ## EIS (42 R203 to R206) -/

/-- `mul` (42 R203): the exact product as a long. -/
def mulLong (s x : Word) : Long := BitVec.ofInt 32 (s.toInt * x.toInt)

/-- The condition codes of `mul`: N and Z of the whole product, C when it does not fit a word (42 R203). -/
def mulFlags (s x : Word) : Flags :=
  let p := s.toInt * x.toInt
  ⟨decide (p < 0), decide (p = 0), false, decide (p < -2 ^ 15 ∨ 2 ^ 15 - 1 < p)⟩

/-- The quotient of `div`, truncated toward zero (42 R204). -/
def divQuotient (dividend : Long) (divisor : Word) : Int := dividend.toInt.tdiv divisor.toInt

/-- The remainder of `div`, `D - q * dv` (42 R204). -/
def divRemainder (dividend : Long) (divisor : Word) : Int :=
  dividend.toInt - divQuotient dividend divisor * divisor.toInt

/-- The quotient does not fit a word (42 R204). -/
def divOverflows (dividend : Long) (divisor : Word) : Bool :=
  decide (divQuotient dividend divisor < -2 ^ 15 ∨ 2 ^ 15 - 1 < divQuotient dividend divisor)

/-- The condition codes of a `div` that succeeds (42 R204). -/
def divFlags (q : Int) : Flags := ⟨decide (q < 0), decide (q = 0), false, false⟩

/-- The shift count of `ash` and `ashc`: the low six bits of the source, signed (42 R205, 92 D43). -/
def shiftCount (s : Word) : Int := (s.extractLsb' 0 6).toInt

/-- A left shift by `k` places, `k > 0`: the result, C the last bit shifted out of the top, V when the exact value does not fit
(42 R205, R206). -/
def shiftLeft {w : Nat} (d : BitVec w) (k : Nat) : BitVec w × Flags :=
  let f : Int := d.toInt * 2 ^ k
  let r := BitVec.ofInt w f
  (r, ⟨r.msb, r == 0, decide (r.toInt ≠ f), if k ≤ w then d.getLsbD (w - k) else false⟩)

/-- A right shift by `j` places, `j > 0`, toward the smaller integer: C the last bit shifted out of the bottom (42 R205, R206). -/
def shiftRight {w : Nat} (d : BitVec w) (j : Nat) : BitVec w × Flags :=
  let r := BitVec.ofInt w (d.toInt.fdiv (2 ^ j))
  (r, ⟨r.msb, r == 0, false, if j ≤ w then d.getLsbD (j - 1) else d.msb⟩)

/-- `ash` and `ashc` on the value they shift (42 R205, R206); `zeroC` is the carry after a count of zero. -/
def shiftOp {w : Nat} (zeroC : Bool) (d : BitVec w) (k : Int) : BitVec w × Flags :=
  if 0 < k then shiftLeft d k.toNat
  else if k < 0 then shiftRight d (-k).toNat
  else (d, ⟨d.msb, d == 0, false, zeroC⟩)

/-! ## Branches (44 R221 to R235) -/

/-- The displacement of a branch in bytes: a signed word offset (30 R116). -/
def branchDisplacement (nn : BitVec 8) : Word := nn.signExtend 16 <<< 1

end Sys2Proof.Machine
end

