-- ==== Sys2Proof/Machine/Memory.lean ====
section
/-! DEFINITION. Physical memory as a list of written bytes (10 R41) in one canonical form: addresses strictly rising. A byte that
nothing has written is not listed and stores no value, so no entry can equal it; a read of it gives a free value (log 1). -/

namespace Sys2Proof.Machine

/-- The byte something has written at an address, if anything has. -/
def memLookup : Memory → Nat → Option Byte
  | [], _ => none
  | (k, b) :: rest, a => if a = k then some b else memLookup rest a

/-- Write one byte, keeping the addresses strictly rising. -/
def memInsert : Memory → Nat → Byte → Memory
  | [], a, v => [(a, v)]
  | (k, b) :: rest, a, v =>
    if a < k then (a, v) :: (k, b) :: rest
    else if a = k then (a, v) :: rest
    else (k, b) :: memInsert rest a v

/-- What a read of a byte of memory gives: the byte last written (20 R85), else the free value of the address (10 R40, 93 U3,
log 1). -/
def memByte (m : Memory) (a : Nat) : Byte :=
  (memLookup m a).getD (Config.powerUpByte a)

/-- Every address of the list is above `a`. -/
def memAbove (a : Nat) : Memory → Bool
  | [] => true
  | (k, _) :: rest => decide (a < k) && memAbove a rest

/-- The canonical form: addresses strictly rising. -/
def Memory.wf : Memory → Bool
  | [] => true
  | (k, _) :: rest => memAbove k rest && Memory.wf rest

/-- Every address of the list is below `top`. -/
def memBelow (top : Nat) : Memory → Bool
  | [] => true
  | (k, _) :: rest => decide (k < top) && memBelow top rest

end Sys2Proof.Machine
end

