-- ==== Sys2Proof/Machine/Mmu.lean ====
section
/-! DEFINITION. From virtual to physical addresses: the fixed mapping and the memory management unit (20 R52, R69 to R75). -/

namespace Sys2Proof.Machine

/-- The two kinds of access a translation distinguishes (20 R60); a fetch is a read (R75). -/
inductive Access where
  | read
  | write
deriving DecidableEq, Repr

/-- The fixed mapping: the first 56K to memory, the last 8K to the I/O page (20 R52). -/
def fixedMap (va : Word) : PhysAddr :=
  if va < 0o160000#16 then va.setWidth 18 else va.setWidth 18 + 0o600000#18

/-- The page of a virtual address, bits 15:13 (20 R70). -/
def pageOf (va : Word) : BitVec 3 := va.extractLsb' 13 3

/-- The offset in the page, bits 12:0 (20 R70). -/
def offsetOf (va : Word) : BitVec 13 := va.extractLsb' 0 13

/-- `b = 64 * S`, the length of the lower part of the page (20 R72, R73). -/
def pdrBound (pdr : Word) : BitVec 13 := (pdrS pdr).setWidth 13 <<< 6

/-- The offset lies in the part of the page that U selects (20 R73). -/
def offsetValid (bounds : MmuBounds) (pdr : Word) (off : BitVec 13) : Bool :=
  match bounds with
  | .sourceLiteral => if pdrU pdr then pdrBound pdr ≤ off else off ≤ pdrBound pdr
  | .blockGranular => if pdrU pdr then pdrS pdr ≤ off.extractLsb' 6 7 else off.extractLsb' 6 7 ≤ pdrS pdr

/-- The reasons a translation fails, as the bits 12:10 of MMR0: write without W, offset not valid, R off (20 R74, R75, R78). -/
def mmuReasons (bounds : MmuBounds) (pdr : Word) (off : BitVec 13) (kind : Access) : BitVec 3 :=
  (if kind = .write ∧ pdrW pdr = false then 0b100 else 0) ||| (if offsetValid bounds pdr off then 0 else 0b010)
    ||| (if pdrR pdr then 0 else 0b001)

/-- `p = PAR[11:0] * 64`, the physical address the page starts at (20 R71). -/
def parBase (par : Word) : PhysAddr := (par &&& parMask).setWidth 18 <<< 6

/-- The physical address of an offset in a page; a sum beyond 18 bits wraps (20 R74). -/
def mmuMap (bounds : MmuBounds) (par pdr : Word) (off : BitVec 13) : PhysAddr :=
  match bounds with
  | .sourceLiteral =>
    if pdrU pdr then parBase par + (off - pdrBound pdr).setWidth 18 else parBase par + off.setWidth 18
  | .blockGranular => parBase par + off.setWidth 18

/-- The PAR of a page in the register set of a mode (20 R70, R77). -/
def State.par (s : State) (mode : Mode) (page : BitVec 3) : Word :=
  match mode with
  | .kernel => s.kernelPar.get page.toFin
  | .user => s.userPar.get page.toFin

/-- The PDR of a page in the register set of a mode (20 R70, R77). -/
def State.pdr (s : State) (mode : Mode) (page : BitVec 3) : Word :=
  match mode with
  | .kernel => s.kernelPdr.get page.toFin
  | .user => s.userPdr.get page.toFin

/-- Replace a PAR. -/
def State.setPar (s : State) (mode : Mode) (page : BitVec 3) (v : Word) : State :=
  match mode with
  | .kernel => { s with kernelPar := s.kernelPar.set page.toNat v page.isLt }
  | .user => { s with userPar := s.userPar.set page.toNat v page.isLt }

/-- Replace a PDR. -/
def State.setPdr (s : State) (mode : Mode) (page : BitVec 3) (v : Word) : State :=
  match mode with
  | .kernel => { s with kernelPdr := s.kernelPdr.set page.toNat v page.isLt }
  | .user => { s with userPdr := s.userPdr.set page.toNat v page.isLt }

/-- The reasons, if any, why the MMU turns an access down (20 R74). -/
def State.accessReasons (s : State) (mode : Mode) (va : Word) (kind : Access) : BitVec 3 :=
  mmuReasons s.cfg.mmuBounds (s.pdr mode (pageOf va)) (offsetOf va) kind

/-- The physical address of a virtual address in the address space of a mode, where the access is not turned down (20 R60, R74). -/
def State.physAddr (s : State) (mode : Mode) (va : Word) : PhysAddr :=
  if mmuEnabled s.mmr0 then
    mmuMap s.cfg.mmuBounds (s.par mode (pageOf va)) (s.pdr mode (pageOf va)) (offsetOf va)
  else fixedMap va

end Sys2Proof.Machine
end

