-- ==== Sys2Proof/Machine/Ops.lean ====
section
/-! DEFINITION. The operations all instructions share (00 R15): registers, physical and virtual accesses, the stack, the trap
sequence and the return from it, interrupt requests, free values. -/

namespace Sys2Proof.Machine

/-! ## Steps of an instruction -/

/-- The exceptions an instruction raises (00 R15, 60 R240). -/
inductive Exn where
  | busError
  | illegalInstruction
  | breakpoint
  | ioTrap
  | emulatorTrap
  | systemTrap
  | mmuFault
deriving DecidableEq, Repr

/-- The vector of an exception (60 R240). -/
def exnVector : Exn → Word
  | .busError => 0o004
  | .illegalInstruction => 0o010
  | .breakpoint => 0o014
  | .ioTrap => 0o020
  | .emulatorTrap => 0o030
  | .systemTrap => 0o034
  | .mmuFault => 0o250

/-- Why an instruction stops in the middle of its pseudocode. -/
inductive Abort where
  /-- it raises an exception (00 R15) -/
  | raised (e : Exn)
  /-- the model refuses what it would do next -/
  | refusal (r : Refusal)
deriving DecidableEq, Repr

/-- A piece of an instruction's pseudocode: it reads and changes the state and gives a value, or stops with the state as it
stands: what was done before an exception stays (60 R243). -/
abbrev Action (α : Type) := EStateM Abort State α

/-- How a step ends. -/
abbrev Result := Host.Outcome State Fault Refusal

/-- `raise` of the pseudocode (00 R15). -/
def raise {α : Type} (e : Exn) : Action α := throw (.raised e)

/-- Stop with a refusal. -/
def refuse {α : Type} (r : Refusal) : Action α := throw (.refusal r)

/-! ## Free values (log 2) -/

/-- Draw an open word. -/
def drawWord : Action Word := fun s => .ok (Config.freeWord s.draws) { s with draws := s.draws + 1 }

/-- Draw an open byte. -/
def drawByte : Action Byte := fun s => .ok (Config.freeByte s.draws) { s with draws := s.draws + 1 }

/-- Draw an open bit. -/
def drawBit : Action Bool := fun s => .ok (Config.freeBit s.draws) { s with draws := s.draws + 1 }

/-! ## Modes, registers, condition codes -/

/-- The current mode, CM (10 R25). -/
def State.mode (s : State) : Mode := modeOf (pswCM s.psw)

/-- The previous mode, PM (10 R25). -/
def State.prevMode (s : State) : Mode := modeOf (pswPM s.psw)

/-- The stack pointer of a mode (10 R23). -/
def State.stackPointer (s : State) : Mode → Word
  | .kernel => s.ksp
  | .user => s.usp

/-- Replace the stack pointer of a mode. -/
def State.setStackPointer (s : State) (mode : Mode) (v : Word) : State :=
  match mode with
  | .kernel => { s with ksp := v }
  | .user => { s with usp := v }

/-- `x[i]`, the general register `i`; R6 is the stack pointer of the current mode, R7 the PC (00 R15, 10 R21 to R23). -/
def State.reg (s : State) : Reg → Word
  | .r0 => s.r0
  | .r1 => s.r1
  | .r2 => s.r2
  | .r3 => s.r3
  | .r4 => s.r4
  | .r5 => s.r5
  | .sp => s.stackPointer s.mode
  | .pc => s.pc

/-- `x[i] <- v` (00 R15). -/
def State.setReg (s : State) (r : Reg) (v : Word) : State :=
  match r with
  | .r0 => { s with r0 := v }
  | .r1 => { s with r1 := v }
  | .r2 => { s with r2 := v }
  | .r3 => { s with r3 := v }
  | .r4 => { s with r4 := v }
  | .r5 => { s with r5 := v }
  | .sp => s.setStackPointer s.mode v
  | .pc => { s with pc := v }

/-- The condition codes (10 R30). -/
def State.flags (s : State) : Flags := pswFlags s.psw

/-- Replace the condition codes. -/
def State.setFlags (s : State) (f : Flags) : State := { s with psw := pswWithFlags s.psw f }

/-- Read a register. -/
def readReg (r : Reg) : Action Word := fun s => .ok (s.reg r) s

/-- Write a register. -/
def writeReg (r : Reg) (v : Word) : Action Unit := fun s => .ok () (s.setReg r v)

/-- The current mode, as it stands now (20 R61: "read at the moment of the access"). -/
def currentMode : Action Mode := fun s => .ok s.mode s

/-- The condition codes, as they stand now. -/
def readFlags : Action Flags := fun s => .ok s.flags s

/-- Assign the condition codes. -/
def writeFlags (f : Flags) : Action Unit := fun s => .ok () (s.setFlags f)

/-! ## Registers in the I/O page (20 R64) -/

/-- The page whose register stands at `a` in a set of eight word registers that starts at `base` (20 R77). -/
def pageAt (a base : Nat) : BitVec 3 := BitVec.ofNat 3 ((a - base) / 2)

/-- `a` lies in the eight words that start at `base`. -/
def inSet (a base : Nat) : Bool := decide (base ≤ a) && decide (a < base + 16)

/-- The register at a physical byte address, either byte of it (20 R62, R64). -/
def ioRegAt (pa : PhysAddr) : Option IoReg :=
  let a := pa.toNat
  if inSet a 0o772300 then some (.pdr .kernel (pageAt a 0o772300))
  else if inSet a 0o772340 then some (.par .kernel (pageAt a 0o772340))
  else if inSet a 0o777600 then some (.pdr .user (pageAt a 0o777600))
  else if inSet a 0o777640 then some (.par .user (pageAt a 0o777640))
  else if a = 0o777570 ∨ a = 0o777571 then some .switches
  else if a = 0o777572 ∨ a = 0o777573 then some .mmr0
  else if a = 0o777576 ∨ a = 0o777577 then some .mmr2
  else if a = 0o777776 ∨ a = 0o777777 then some .psw
  else none

/-- The word a read of the register gives (20 R65, R66, R71, R72, R78, R79). -/
def State.ioRead (s : State) : IoReg → Word
  | .pdr mode page => s.pdr mode page &&& pdrMask
  | .par mode page => s.par mode page &&& parMask
  | .switches => s.sr
  | .mmr0 => s.mmr0 &&& mmr0Mask
  | .mmr2 => s.mmr2
  | .psw => pswRead s.psw

/-- The operator's next setting of the switches, if there is one, takes effect (10 R33, 60 R266, 93 U4, log 3). -/
def State.operatorMoves (s : State) : State :=
  { s with sr := s.switchMoves.headD s.sr, switchMoves := s.switchMoves.tail }

/-- The state after a read of the register: between two reads of SR the operator may act (10 R33, 60 R266, log 3). -/
def State.afterIoRead (s : State) : IoReg → State
  | .switches => s.operatorMoves
  | _ => s

/-- The word a byte write replaces one byte of: what a read gives, but DR at 0777570, which cannot be read (20 R62, R66). -/
def State.ioOld (s : State) : IoReg → Word
  | .switches => s.dr
  | r => s.ioRead r

/-- Write a word to the register (20 R65, R66, R71, R72, R78, R79). A reserved mode in a PSW write is refused (10 R26). -/
def ioWrite (r : IoReg) (v : Word) : Action Unit := fun s =>
  match r with
  | .pdr mode page => .ok () (s.setPdr mode page (v &&& pdrWriteMask))
  | .par mode page => .ok () (s.setPar mode page (v &&& parMask))
  | .switches => .ok () { s with dr := v }
  | .mmr0 => .ok () { s with mmr0 := v &&& mmr0Mask }
  | .mmr2 => .ok () s
  | .psw => if pswWritable v then .ok () { s with psw := pswRead v } else .error (.refusal .reservedMode) s

/-- Load a register of the I/O page with a word from outside the program: the bits it has, MMR2 and bit C of a PDR among them; DR at
0777570. A reserved mode is refused (10 R26, 20 R64, R66, R71, R72, R78; 40 R146). -/
def ioLoad (r : IoReg) (v : Word) : Action Unit := fun s =>
  match r with
  | .pdr mode page => .ok () (s.setPdr mode page (v &&& pdrMask))
  | .par mode page => .ok () (s.setPar mode page (v &&& parMask))
  | .switches => .ok () { s with dr := v }
  | .mmr0 => .ok () { s with mmr0 := v &&& mmr0Mask }
  | .mmr2 => .ok () { s with mmr2 := v }
  | .psw => if pswWritable v then .ok () { s with psw := pswRead v } else .error (.refusal .reservedMode) s

/-! ## Physical accesses (20 R54, R57, R62) -/

/-- One of the two bytes of a word: the high one at an odd address (20 R54). -/
def byteOf (v : Word) (pa : PhysAddr) : Byte :=
  if pa.getLsbD 0 then highByte v else lowByte v

/-- A word with one of its bytes replaced (20 R62). -/
def withByte (old : Word) (pa : PhysAddr) (v : Byte) : Word :=
  if pa.getLsbD 0 then wordOf v (lowByte old) else wordOf (highByte old) v

/-- The byte of memory at a physical address. -/
def State.byteAt (s : State) (a : Nat) : Byte := memByte s.mem a

/-- The word of memory at an even physical address, low byte first (20 R54). -/
def State.wordAt (s : State) (a : Nat) : Word := wordOf (s.byteAt (a + 1)) (s.byteAt a)

/-- Store a byte of memory. -/
def State.putByte (s : State) (a : Nat) (v : Byte) : State := { s with mem := memInsert s.mem a v }

/-- Store a word of memory, low byte first (20 R54). -/
def State.putWord (s : State) (a : Nat) (v : Word) : State :=
  (s.putByte a (lowByte v)).putByte (a + 1) (highByte v)

/-- `PhysRead(pa, 2)` (20 R62). A device answers a free value. -/
def physReadWord (pa : PhysAddr) : Action Word := fun s =>
  if pa.toNat < s.cfg.memTop then .ok (s.wordAt pa.toNat) s
  else match ioRegAt pa with
    | some r => .ok (s.ioRead r) (s.afterIoRead r)
    | none => if pa.toNat ∈ s.cfg.deviceAddrs then drawWord s else .error (.raised .busError) s

/-- `PhysRead(pa, 1)` (20 R62). -/
def physReadByte (pa : PhysAddr) : Action Byte := fun s =>
  if pa.toNat < s.cfg.memTop then .ok (s.byteAt pa.toNat) s
  else match ioRegAt pa with
    | some r => .ok (byteOf (s.ioRead r) pa) (s.afterIoRead r)
    | none => if pa.toNat ∈ s.cfg.deviceAddrs then drawByte s else .error (.raised .busError) s

/-- `PhysWrite(pa, 2, v)` (20 R62). What a device does with a word it is given is not in the spec (log 8). -/
def physWriteWord (pa : PhysAddr) (v : Word) : Action Unit := fun s =>
  if pa.toNat < s.cfg.memTop then .ok () (s.putWord pa.toNat v)
  else match ioRegAt pa with
    | some r => ioWrite r v s
    | none => if pa.toNat ∈ s.cfg.deviceAddrs then .ok () s else .error (.raised .busError) s

/-- `PhysWrite(pa, 1, v)` (20 R62). -/
def physWriteByte (pa : PhysAddr) (v : Byte) : Action Unit := fun s =>
  if pa.toNat < s.cfg.memTop then .ok () (s.putByte pa.toNat v)
  else match ioRegAt pa with
    | some r => ioWrite r (withByte (s.ioOld r) pa v) s
    | none => if pa.toNat ∈ s.cfg.deviceAddrs then .ok () s else .error (.raised .busError) s

/-! ## Virtual accesses (20 R56, R60, R61) -/

/-- The check of a word address: an odd one raises `BusError` before anything else (20 R56, 60 R242). -/
def checkEven (va : Word) : Action Unit := fun s =>
  if va.getLsbD 0 then .error (.raised .busError) s else .ok () s

/-- `Translate(mode, va, kind)` (20 R60, R74). A fault is recorded in MMR0 (R83); MMR2 is written when the exception leaves the
instruction (`takeTrap`), since a fault in a trap sequence leaves it alone. -/
def translate (mode : Mode) (va : Word) (kind : Access) : Action PhysAddr := fun s =>
  if mmuEnabled s.mmr0 then
    let reasons := s.accessReasons mode va kind
    if reasons = 0 then .ok (s.physAddr mode va) s
    else .error (.raised .mmuFault) { s with mmr0 := mmr0OfFault s.mmr0 mode (pageOf va) reasons }
  else .ok (s.physAddr mode va) s

/-- After a completed write: where the MMU translated it, bit C of the PDR it was translated through is set (20 R61, R76; log 12). -/
def markWritten (translated : Bool) (mode : Mode) (va : Word) : Action Unit := fun s =>
  if translated then .ok () (s.setPdr mode (pageOf va) (pdrSetC (s.pdr mode (pageOf va)))) else .ok () s

/-- The access goes to the PSW (20 R64, R65). -/
def hitsPsw (pa : PhysAddr) : Bool := ioRegAt pa == some .psw

/-- The MMU is on, as it stands now. -/
def readMmuEnabled : Action Bool := fun s => .ok (mmuEnabled s.mmr0) s

/-- `MemReadM(mode, va, 2)` (20 R61). -/
def memReadWordIn (mode : Mode) (va : Word) : Action Word := do
  checkEven va
  let pa ← translate mode va .read
  physReadWord pa

/-- `MemReadM(mode, va, 1)` (20 R61). -/
def memReadByteIn (mode : Mode) (va : Word) : Action Byte := do
  let pa ← translate mode va .read
  physReadByte pa

/-- `MemWriteM(mode, va, 2, v)` (20 R61). The answer says whether the PSW was written (R65). -/
def memWriteWordIn (mode : Mode) (va : Word) (v : Word) : Action Bool := do
  checkEven va
  let on ← readMmuEnabled
  let pa ← translate mode va .write
  physWriteWord pa v
  markWritten on mode va
  return hitsPsw pa

/-- `MemWriteM(mode, va, 1, v)` (20 R61). -/
def memWriteByteIn (mode : Mode) (va : Word) (v : Byte) : Action Bool := do
  let on ← readMmuEnabled
  let pa ← translate mode va .write
  physWriteByte pa v
  markWritten on mode va
  return hitsPsw pa

/-- `MemRead(va, 2)`: in the address space of the current mode (20 R61). -/
def memReadWord (va : Word) : Action Word := do
  let mode ← currentMode
  memReadWordIn mode va

/-- `MemRead(va, 1)` (20 R61). -/
def memReadByte (va : Word) : Action Byte := do
  let mode ← currentMode
  memReadByteIn mode va

/-! ## The PC and the stack (10 R22, R23) -/

/-- Read the word the PC addresses and step the PC over it (10 R22). -/
def fetchWord : Action Word := do
  let pc ← readReg .pc
  let w ← memReadWord pc
  writeReg .pc (pc + 2)
  return w

/-- A push was made at `va` by a program in `mode`: below 0400 in kernel mode the yellow stack trap is due (20 R67). -/
def notePush (mode : Mode) (va : Word) : Action Unit := fun s =>
  if mode = .kernel ∧ va < 0o400 then .ok () { s with yellowPending := true } else .ok () s

/-- `push(v)` on the current stack (00 R15, 10 R23, 20 R67). -/
def push (v : Word) : Action Unit := do
  let sp ← readReg .sp
  writeReg .sp (sp - 2)
  let mode ← currentMode
  let _ ← memWriteWordIn mode (sp - 2) v
  notePush mode (sp - 2)

/-- `pop()` from the current stack (00 R15, 10 R23). -/
def pop : Action Word := do
  let sp ← readReg .sp
  let t ← memReadWord sp
  writeReg .sp (sp + 2)
  return t

/-! ## Taking a trap (60 R241, R248) -/

/-- The vector at `n`, read through the kernel address space: the new PC and the new PS (60 R241). -/
def vectorFetch (n : Word) : Action (Word × Word) := do
  let newPc ← memReadWordIn .kernel n
  let newPs ← memReadWordIn .kernel (n + 2)
  return (newPc, newPs)

/-- A push of the trap sequence: on the kernel stack, through the kernel space, without the yellow check (60 R241, 20 R67). -/
def pushKernel (v : Word) : Action Unit := do
  let s ← get
  set { s with ksp := s.ksp - 2 }
  let _ ← memWriteWordIn .kernel (s.ksp - 2) v

/-- The two pushes of the trap sequence (60 R241). -/
def trapPushes (oldPs oldPc : Word) : Action Unit := do
  pushKernel oldPs
  pushKernel oldPc

/-- What a red stack trap does before it has its new PC: the emergency stack in [0, 4), KSP 0, the vector at 004 (60 R248). -/
def redStackEntry (oldPs oldPc : Word) : Action (Word × Word) := do
  let _ ← memWriteWordIn .kernel 2 oldPs
  let _ ← memWriteWordIn .kernel 0 oldPc
  modify fun s => { s with ksp := 0 }
  vectorFetch 0o004

/-- The red stack trap: a push of the trap sequence failed (60 R248). A second failure has no successor (93 U10). -/
def redStackTrap (oldPs oldPc : Word) (s : State) : Result :=
  match redStackEntry oldPs oldPc s with
  | .ok (newPc, newPs) s' =>
    .next { s' with psw := pswOfTrap oldPs newPs, pc := newPc, yellowPending := false, traceInhibit := false }
  | .error (.raised _) _ => .fault .emergencyStackFailed
  | .error (.refusal r) _ => .refused r

/-- `trap_at(n)` (60 R241): fetch the vector, load the PSW, push the old PSW and the old PC on the kernel stack, load the PC.
A failing vector fetch has no successor (93 U9); a failing push is the red stack trap (R248). -/
def trapAt (n : Word) (s : State) : Result :=
  match vectorFetch n s with
  | .error (.raised _) _ => .fault .vectorFetchFailed
  | .error (.refusal r) _ => .refused r
  | .ok (newPc, newPs) s1 =>
    match trapPushes (pswRead s.psw) s.pc { s1 with psw := pswOfTrap s.psw newPs } with
    | .ok _ s2 => .next { s2 with pc := newPc, yellowPending := false, traceInhibit := false }
    | .error (.raised _) s2 => redStackTrap (pswRead s.psw) s.pc s2
    | .error (.refusal r) _ => .refused r

/-- Note in a next state that the instruction ended in a trap sequence (60 R266, log 11). -/
def markTrap : Result → Result
  | .next s => .next { s with trapTaken := true }
  | .fault f => .fault f
  | .refused r => .refused r

/-- An exception leaves the instruction: an MMU fault records the instruction's address in MMR2 (20 R83), then the trap
sequence runs with the state as it stands (60 R243). -/
def takeTrap (e : Exn) (s : State) : Result :=
  markTrap (trapAt (exnVector e) (if e = .mmuFault then { s with mmr2 := s.ia } else s))

/-- Run an instruction's pseudocode: its final state, or the trap it raised (60 R266). -/
def runInstr (body : Action Unit) (s : State) : Result :=
  match body s with
  | .ok _ s' => .next s'
  | .error (.raised e) s' => takeTrap e s'
  | .error (.refusal r) _ => .refused r

/-! ## Returning from a trap (40 R143) -/

/-- Load the popped PSW: whole in kernel mode, where a reserved mode is refused (10 R26); T and the condition codes in user
mode (40 R143). -/
def loadReturnPsw (popped : Word) : Action Unit := fun s =>
  match s.mode with
  | .kernel =>
    if pswWritable popped then .ok () { s with psw := pswRead popped } else .error (.refusal .reservedMode) s
  | .user => .ok () { s with psw := pswOfUserReturn s.psw popped }

/-- The common pseudocode of `rti` and `rtt` (40 R143): pop the PC, pop the PSW. -/
def returnFromTrap : Action Unit := do
  let newPc ← pop
  writeReg .pc newPc
  let popped ← pop
  loadReturnPsw popped

/-! ## Interrupt requests (60 R250) -/

/-- The order in which the set of requests is listed: by BR, then by vector. -/
def requestKey (q : Request) : Nat := q.br.toNat * 65536 + q.vector.toNat

/-- Add a request to the set. -/
def insertRequest (q : Request) : List Request → List Request
  | [] => [q]
  | p :: rest =>
    if requestKey q < requestKey p then q :: p :: rest
    else if requestKey q = requestKey p then p :: rest
    else p :: insertRequest q rest

/-- Remove a request from the set. -/
def removeRequest (q : Request) (l : List Request) : List Request := l.filter (· ≠ q)

/-- The largest BR among some requests. -/
def maxBr : List Request → BitVec 3
  | [] => 0
  | q :: rest => if maxBr rest < q.br then q.br else maxBr rest

/-- The requests with BR above IPL (60 R250). -/
def acceptable (ipl : BitVec 3) (l : List Request) : List Request := l.filter fun q => ipl < q.br

/-- The requests that may be accepted now: above IPL, and of the largest BR (60 R250). -/
def candidates (ipl : BitVec 3) (l : List Request) : List Request :=
  (acceptable ipl l).filter fun q => q.br = maxBr (acceptable ipl l)

/-- The request that is accepted now, if any, and the state with its choice made: of several candidates the environment
chooses (60 R250, 93 U12). -/
def chooseRequest (s : State) : Option (Request × State) :=
  match candidates (pswIPL s.psw) s.pending with
  | [] => none
  | [q] => some (q, s)
  | q :: rest =>
    some ((q :: rest).getD (Config.freeChoice s.draws % (rest.length + 1)) q, { s with draws := s.draws + 1 })

/-- Accept a request: it leaves the set, the processor runs, the trap sequence follows (60 R250, R266). -/
def acceptRequest (q : Request) (s : State) : Result :=
  trapAt q.vector { s with pending := removeRequest q s.pending, run := .running }

/-! ## What the environment does between steps (10 R33, R35, 20 R91); no step calls these -/

/-- A device raises a request. -/
def requestInterrupt (q : Request) (s : State) : State := { s with pending := insertRequest q s.pending }

/-- A device drops a request. -/
def withdrawInterrupt (q : Request) (s : State) : State := { s with pending := removeRequest q s.pending }

/-- The operator sets the switches, and goes on to set them as `moves` says (10 R33, log 3). -/
def setSwitches (v : Word) (moves : List Word) (s : State) : State := { s with sr := v, switchMoves := moves }

end Sys2Proof.Machine
end

