-- ==== Sys2Proof/Machine/Branch.lean ====
section
/-! DEFINITION. The branches (44_branches.md). -/

namespace Sys2Proof.Machine

/-- A branch (44 R220): if the condition holds, the displacement is added to the PC. -/
def branchIf (cond : Flags → Bool) (nn : BitVec 8) : Action Unit := do
  let f ← readFlags
  if cond f then do
    let pc ← readReg .pc
    writeReg .pc (pc + branchDisplacement nn)
  else pure ()

/-- `br` (44 R221). -/
def execBr (nn : BitVec 8) (s : State) : Result := runInstr (branchIf (fun _ => true) nn) s

/-- `bne` (44 R222). -/
def execBne (nn : BitVec 8) (s : State) : Result := runInstr (branchIf (fun f => !f.z) nn) s

/-- `beq` (44 R223). -/
def execBeq (nn : BitVec 8) (s : State) : Result := runInstr (branchIf (fun f => f.z) nn) s

/-- `bge` (44 R224). -/
def execBge (nn : BitVec 8) (s : State) : Result := runInstr (branchIf (fun f => f.n == f.v) nn) s

/-- `blt` (44 R225). -/
def execBlt (nn : BitVec 8) (s : State) : Result := runInstr (branchIf (fun f => f.n != f.v) nn) s

/-- `bgt` (44 R226). -/
def execBgt (nn : BitVec 8) (s : State) : Result := runInstr (branchIf (fun f => !f.z && f.n == f.v) nn) s

/-- `ble` (44 R227). -/
def execBle (nn : BitVec 8) (s : State) : Result := runInstr (branchIf (fun f => f.z || f.n != f.v) nn) s

/-- `bpl` (44 R228). -/
def execBpl (nn : BitVec 8) (s : State) : Result := runInstr (branchIf (fun f => !f.n) nn) s

/-- `bmi` (44 R229). -/
def execBmi (nn : BitVec 8) (s : State) : Result := runInstr (branchIf (fun f => f.n) nn) s

/-- `bhi` (44 R230). -/
def execBhi (nn : BitVec 8) (s : State) : Result := runInstr (branchIf (fun f => !f.c && !f.z) nn) s

/-- `blos` (44 R231). -/
def execBlos (nn : BitVec 8) (s : State) : Result := runInstr (branchIf (fun f => f.c || f.z) nn) s

/-- `bvc` (44 R232). -/
def execBvc (nn : BitVec 8) (s : State) : Result := runInstr (branchIf (fun f => !f.v) nn) s

/-- `bvs` (44 R233). -/
def execBvs (nn : BitVec 8) (s : State) : Result := runInstr (branchIf (fun f => f.v) nn) s

/-- `bcc` (44 R234). -/
def execBcc (nn : BitVec 8) (s : State) : Result := runInstr (branchIf (fun f => !f.c) nn) s

/-- `bcs` (44 R235). -/
def execBcs (nn : BitVec 8) (s : State) : Result := runInstr (branchIf (fun f => f.c) nn) s

end Sys2Proof.Machine
end

