-- ==== Sys2Proof/Machine/CondCodes.lean ====
section
/-! DEFINITION. The condition-code operations `cl?` and `se?` (41_cc_single_operand.md). -/

namespace Sys2Proof.Machine

/-- The flags a mask selects: bit 3 N, bit 2 Z, bit 1 V, bit 0 C (30 R118). -/
def maskFlags (m : BitVec 4) : Flags := ⟨m.getLsbD 3, m.getLsbD 2, m.getLsbD 1, m.getLsbD 0⟩

/-- Clear the selected flags (41 R151). -/
def clearFlags (f sel : Flags) : Flags := ⟨f.n && !sel.n, f.z && !sel.z, f.v && !sel.v, f.c && !sel.c⟩

/-- Set the selected flags (41 R152). -/
def raiseFlags (f sel : Flags) : Flags := ⟨f.n || sel.n, f.z || sel.z, f.v || sel.v, f.c || sel.c⟩

/-- `cl?` (41 R151); without a selected flag it does nothing (30 R125). -/
def execClcc (m : BitVec 4) (s : State) : Result :=
  runInstr (do
    let old ← readFlags
    writeFlags (clearFlags old (maskFlags m))) s

/-- `se?` (41 R152); without a selected flag it does nothing (30 R125). -/
def execSecc (m : BitVec 4) (s : State) : Result :=
  runInstr (do
    let old ← readFlags
    writeFlags (raiseFlags old (maskFlags m))) s

end Sys2Proof.Machine
end

