-- ==== Sys2Proof/Machine/Operands.lean ====
section
/-! DEFINITION. Operand specifications: `Operand`, `Load`, `Store` and `Step` of the pseudocode (30 R110 to R114), and the shapes in
which instructions use them (41 R150, 42 R190). -/

namespace Sys2Proof.Machine

/-- The width of an operand (30 R101, R110). -/
inductive Width where
  | word
  | byte
deriving DecidableEq, Repr

/-- The location an operand specification names (30 R111). -/
inductive Loc where
  | reg (r : Reg)
  /-- `pushed`: the location is tagged "push", the address being SP just decremented (30 R111, 20 R67) -/
  | mem (ea : Word) (pushed : Bool)
deriving DecidableEq, Repr

/-- `Step(r, n)`: what modes 2 and 4 add or subtract (30 R114): the operand's width, but always 2 for SP and PC. -/
def stepOf (w : Width) (r : Reg) : Word :=
  match w with
  | .word => 2
  | .byte => if r = .sp ∨ r = .pc then 2 else 1

/-- `Operand(spec, n)` (30 R111): the location, with the register changes and in-line words of the address mode. -/
def operand (w : Width) (o : Operand) : Action Loc :=
  match o.mode with
  | .register => return .reg o.reg
  | .indirect => do
    let ea ← readReg o.reg
    return .mem ea false
  | .autoInc => do
    let ea ← readReg o.reg
    writeReg o.reg (ea + stepOf w o.reg)
    return .mem ea false
  | .autoIncIndirect => do
    let t ← readReg o.reg
    let ea ← memReadWord t
    writeReg o.reg (t + 2)
    return .mem ea false
  | .autoDec => do
    let t ← readReg o.reg
    writeReg o.reg (t - stepOf w o.reg)
    return .mem (t - stepOf w o.reg) (o.reg = .sp)
  | .autoDecIndirect => do
    let t ← readReg o.reg
    writeReg o.reg (t - 2)
    let ea ← memReadWord (t - 2)
    return .mem ea false
  | .index => do
    let idx ← fetchWord
    let base ← readReg o.reg
    return .mem (idx + base) false
  | .indexIndirect => do
    let idx ← fetchWord
    let base ← readReg o.reg
    let ea ← memReadWord (idx + base)
    return .mem ea false

/-- `Load(loc, 2)` (30 R112). -/
def loadWord : Loc → Action Word
  | .reg r => readReg r
  | .mem ea _ => memReadWord ea

/-- `Load(loc, 1)` (30 R112): of a register, the low byte (10 R38). -/
def loadByte : Loc → Action Byte
  | .reg r => do
    let v ← readReg r
    return lowByte v
  | .mem ea _ => memReadByte ea

/-- `StoreM(mode, loc, 2, v)` (30 R113). The answer says whether the PSW was written at its address (20 R65). -/
def storeWordIn (mode : Mode) (loc : Loc) (v : Word) : Action Bool :=
  match loc with
  | .reg r => do
    writeReg r v
    return false
  | .mem ea pushed => do
    let current ← currentMode
    let hit ← memWriteWordIn mode ea v
    if pushed then notePush current ea else pure ()
    return hit

/-- `Store(loc, 2, v)`: in the address space of the current mode (30 R113). -/
def storeWord (loc : Loc) (v : Word) : Action Bool := do
  let mode ← currentMode
  storeWordIn mode loc v

/-- The word a byte result leaves in a register that held `old` (10 R37). -/
def byteInReg (dest : ByteRegDest) (old : Word) (v : Byte) : Word :=
  match dest with
  | .signExtendAll => v.signExtend 16
  | .movbOnly => wordOf (highByte old) v

/-- `Store(loc, 1, v)` (30 R113), a register being written as `dest` says (10 R37). -/
def storeByteAs (dest : ByteRegDest) (loc : Loc) (v : Byte) : Action Bool :=
  match loc with
  | .reg r => do
    let old ← readReg r
    writeReg r (byteInReg dest old v)
    return false
  | .mem ea pushed => do
    let mode ← currentMode
    let hit ← memWriteByteIn mode ea v
    if pushed then notePush mode ea else pure ()
    return hit

/-- The parameter BYTE_REG_DEST (00 R7). -/
def readByteRegDest : Action ByteRegDest := fun s => .ok s.cfg.byteRegDest s

/-- `Store(loc, 1, v)` of every byte instruction but `movb` (10 R37). -/
def storeByte (loc : Loc) (v : Byte) : Action Bool := do
  let dest ← readByteRegDest
  storeByteAs dest loc v

/-- The assignment of the condition codes after a `Store`: skipped when the `Store` landed on the PSW (20 R65). -/
def assignFlags (hit : Bool) (f : Flags) : Action Unit :=
  if hit then pure () else writeFlags f

/-! ## Shapes: what an instruction does with its operands, given what it computes -/

/-- A word read-modify-write: `op` gives the result and the condition codes from the old codes and the operand (41 R150). -/
def rmwWord (op : Flags → Word → Word × Flags) (dd : Operand) : Action Unit := do
  let loc ← operand .word dd
  let d ← loadWord loc
  let old ← readFlags
  let hit ← storeWord loc (op old d).1
  assignFlags hit (op old d).2

/-- A byte read-modify-write (41 R150). -/
def rmwByte (op : Flags → Byte → Byte × Flags) (dd : Operand) : Action Unit := do
  let loc ← operand .byte dd
  let d ← loadByte loc
  let old ← readFlags
  let hit ← storeByte loc (op old d).1
  assignFlags hit (op old d).2

/-- A word destination that is written without being read (20 R58). -/
def putWordTo (op : Flags → Word × Flags) (dd : Operand) : Action Unit := do
  let loc ← operand .word dd
  let old ← readFlags
  let hit ← storeWord loc (op old).1
  assignFlags hit (op old).2

/-- A byte destination that is written without being read (20 R58). -/
def putByteTo (op : Flags → Byte × Flags) (dd : Operand) : Action Unit := do
  let loc ← operand .byte dd
  let old ← readFlags
  let hit ← storeByte loc (op old).1
  assignFlags hit (op old).2

/-- A word operand that is only read (20 R58). -/
def testWord (op : Flags → Word → Flags) (dd : Operand) : Action Unit := do
  let loc ← operand .word dd
  let d ← loadWord loc
  let old ← readFlags
  writeFlags (op old d)

/-- A byte operand that is only read (20 R58). -/
def testByte (op : Flags → Byte → Flags) (dd : Operand) : Action Unit := do
  let loc ← operand .byte dd
  let d ← loadByte loc
  let old ← readFlags
  writeFlags (op old d)

/-- The source operand of a word instruction: its specification, then its value (30 R115). -/
def sourceWord (ss : Operand) : Action Word := do
  let loc ← operand .word ss
  loadWord loc

/-- The source operand of a byte instruction (30 R115). -/
def sourceByte (ss : Operand) : Action Byte := do
  let loc ← operand .byte ss
  loadByte loc

/-- Two word operands, the destination read and written (42 R190). -/
def combineWord (op : Flags → Word → Word → Word × Flags) (ss dd : Operand) : Action Unit := do
  let s ← sourceWord ss
  rmwWord (fun old d => op old s d) dd

/-- Two byte operands, the destination read and written (42 R190). -/
def combineByte (op : Flags → Byte → Byte → Byte × Flags) (ss dd : Operand) : Action Unit := do
  let s ← sourceByte ss
  rmwByte (fun old d => op old s d) dd

/-- Two word operands that are only read (42 R190). -/
def compareWord (op : Flags → Word → Word → Flags) (ss dd : Operand) : Action Unit := do
  let s ← sourceWord ss
  testWord (fun old d => op old s d) dd

/-- Two byte operands that are only read (42 R190). -/
def compareByte (op : Flags → Byte → Byte → Flags) (ss dd : Operand) : Action Unit := do
  let s ← sourceByte ss
  testByte (fun old d => op old s d) dd

end Sys2Proof.Machine
end

