-- ==== Sys2Proof/Machine/DoubleOp.lean ====
section
/-! DEFINITION. The two-operand instructions and `xor` (42_double_operand_eis.md). -/

namespace Sys2Proof.Machine

/-- `mov` (42 R191): the destination is not read. -/
def execMov (ss dd : Operand) (s : State) : Result :=
  runInstr (do
    let v ← sourceWord ss
    putWordTo (fun old => (v, logicFlags old v)) dd) s

/-- `movb` (42 R192): a register destination is sign-extended under both values of BYTE_REG_DEST. -/
def execMovb (ss dd : Operand) (s : State) : Result :=
  runInstr (do
    let v ← sourceByte ss
    let loc ← operand .byte dd
    let old ← readFlags
    let hit ← storeByteAs .signExtendAll loc v
    assignFlags hit (logicFlags old v)) s

/-- `cmp` (42 R193). -/
def execCmp (ss dd : Operand) (s : State) : Result := runInstr (compareWord cmpOp ss dd) s

/-- `cmpb` (42 R194). -/
def execCmpb (ss dd : Operand) (s : State) : Result := runInstr (compareByte cmpOp ss dd) s

/-- `bit` (42 R195). -/
def execBit (ss dd : Operand) (s : State) : Result := runInstr (compareWord bitOp ss dd) s

/-- `bitb` (42 R196). -/
def execBitb (ss dd : Operand) (s : State) : Result := runInstr (compareByte bitOp ss dd) s

/-- `bic` (42 R197). -/
def execBic (ss dd : Operand) (s : State) : Result := runInstr (combineWord bicOp ss dd) s

/-- `bicb` (42 R198). -/
def execBicb (ss dd : Operand) (s : State) : Result := runInstr (combineByte bicOp ss dd) s

/-- `bis` (42 R199). -/
def execBis (ss dd : Operand) (s : State) : Result := runInstr (combineWord bisOp ss dd) s

/-- `bisb` (42 R200). -/
def execBisb (ss dd : Operand) (s : State) : Result := runInstr (combineByte bisOp ss dd) s

/-- `add` (42 R201): words only. -/
def execAdd (ss dd : Operand) (s : State) : Result := runInstr (combineWord addOp ss dd) s

/-- `sub` (42 R202): words only. -/
def execSub (ss dd : Operand) (s : State) : Result := runInstr (combineWord subOp ss dd) s

/-- `xor` (42 R207): the register is read after the destination specification is evaluated and read (30 R115, 92 D40). -/
def execXor (r : Reg) (dd : Operand) (s : State) : Result :=
  runInstr (do
    let loc ← operand .word dd
    let d ← loadWord loc
    let x ← readReg r
    let old ← readFlags
    let hit ← storeWord loc (xorOp old x d).1
    assignFlags hit (xorOp old x d).2) s

end Sys2Proof.Machine
end

