-- ==== Sys2Proof/Machine/Eis.lean ====
section
/-! DEFINITION. The extended instruction set: `mul div ash ashc` (42_double_operand_eis.md). -/

namespace Sys2Proof.Machine

/-- The register number is odd. -/
def regOdd : Reg → Bool
  | .r0 | .r2 | .r4 | .sp => false
  | .r1 | .r3 | .r5 | .pc => true

/-- The second register of a pair, `r|1` (10 R39). -/
def regPair : Reg → Reg
  | .r0 | .r1 => .r1
  | .r2 | .r3 => .r3
  | .r4 | .r5 => .r5
  | .sp | .pc => .pc

/-- The long of two words, high word first (10 R39). -/
def longOf (high low : Word) : Long := high.setWidth 32 <<< 16 ||| low.setWidth 32

/-- The high word of a long (10 R39). -/
def highWord (v : Long) : Word := v.extractLsb' 16 16

/-- The low word of a long (10 R39). -/
def lowWord (v : Long) : Word := v.extractLsb' 0 16

/-- The long in a register pair, high word first (10 R39). -/
def readPair (r : Reg) : Action Long := do
  let hi ← readReg r
  let lo ← readReg (regPair r)
  return longOf hi lo

/-- Write a long to a register pair, high word first (10 R39). -/
def writePair (r : Reg) (v : Long) : Action Unit := do
  writeReg r (highWord v)
  writeReg (regPair r) (lowWord v)

/-- `mul` (42 R203): an odd register keeps the low word. -/
def execMul (r : Reg) (ss : Operand) (s : State) : Result :=
  runInstr (do
    let v ← sourceWord ss
    let x ← readReg r
    if regOdd r then writeReg r (lowWord (mulLong v x)) else writePair r (mulLong v x)
    writeFlags (mulFlags v x)) s

/-- `div` by zero: registers unchanged, V and C set, N and Z open (42 R204, 93 U5). -/
def divByZero : Action Unit := do
  let n ← drawBit
  let z ← drawBit
  writeFlags ⟨n, z, true, true⟩

/-- A quotient that does not fit: V set, C cleared, the registers, N and Z open (42 R204, 93 U7). -/
def divOverflow (r : Reg) : Action Unit := do
  let hi ← drawWord
  let lo ← drawWord
  let n ← drawBit
  let z ← drawBit
  writePair r (longOf hi lo)
  writeFlags ⟨n, z, true, false⟩

/-- The quotient to `r`, the remainder to `r|1` (42 R204). -/
def divResult (r : Reg) (dividend : Long) (divisor : Word) : Action Unit := do
  writeReg r (BitVec.ofInt 16 (divQuotient dividend divisor))
  writeReg (regPair r) (BitVec.ofInt 16 (divRemainder dividend divisor))
  writeFlags (divFlags (divQuotient dividend divisor))

/-- `div` (42 R204): with an odd register the model refuses (93 U6), after the source has been read. -/
def execDiv (r : Reg) (ss : Operand) (s : State) : Result :=
  runInstr (do
    let v ← sourceWord ss
    if regOdd r then refuse .divOddRegister
    else do
      let dividend ← readPair r
      if v = 0 then divByZero
      else if divOverflows dividend v then divOverflow r
      else divResult r dividend v) s

/-- The carry after a count of zero: the parameter ASH_ZERO_C (42 R205); with another count it is not used. -/
def zeroCarry (k : Int) : Action Bool := fun s =>
  if k = 0 then
    match s.cfg.ashZeroC with
    | .clear => .ok false s
    | .keep => .ok s.flags.c s
    | .draw => drawBit s
  else .ok false s

/-- The one-register arithmetic shift of `ash`, and of `ashc` with an odd register (42 R205, R206). -/
def shiftRegister (r : Reg) (count : Word) : Action Unit := do
  let d ← readReg r
  let zeroC ← zeroCarry (shiftCount count)
  writeReg r (shiftOp zeroC d (shiftCount count)).1
  writeFlags (shiftOp zeroC d (shiftCount count)).2

/-- The two-register arithmetic shift of `ashc` (42 R206). -/
def shiftPair (r : Reg) (count : Word) : Action Unit := do
  let d ← readPair r
  let zeroC ← zeroCarry (shiftCount count)
  writePair r (shiftOp zeroC d (shiftCount count)).1
  writeFlags (shiftOp zeroC d (shiftCount count)).2

/-- `ash` (42 R205). -/
def execAsh (r : Reg) (ss : Operand) (s : State) : Result :=
  runInstr (do
    let v ← sourceWord ss
    shiftRegister r v) s

/-- `ashc` (42 R206). -/
def execAshc (r : Reg) (ss : Operand) (s : State) : Result :=
  runInstr (do
    let v ← sourceWord ss
    if regOdd r then shiftRegister r v else shiftPair r v) s

end Sys2Proof.Machine
end

