-- ==== Sys2Proof/Machine/Illegal.lean ====
section
/-! DEFINITION. The illegal codes (30_encoding.md R122): each is the trap at 010. -/

namespace Sys2Proof.Machine

/-- An illegal code: trap at 010, the operand specifications not evaluated (30 R123, 60 R244). -/
def illegalTrap (s : State) : Result := runInstr (raise .illegalInstruction) s

/-- 000007, implemented by other models (30 R122, R123). -/
def execIllegalMfpt (s : State) : Result := illegalTrap s

/-- 000010-000017 (30 R122, R123). -/
def execIllegal000010 (s : State) : Result := illegalTrap s

/-- 000020-000037 (30 R122, R123). -/
def execIllegal000020 (s : State) : Result := illegalTrap s

/-- 000040-000077 (30 R122, R123). -/
def execIllegal000040 (s : State) : Result := illegalTrap s

/-- 000210-000217 (30 R122, R123). -/
def execIllegal000210 (s : State) : Result := illegalTrap s

/-- 000220-000227 (30 R122, R123). -/
def execIllegal000220 (s : State) : Result := illegalTrap s

/-- 00023m, PDP-11/45 and /70 only (30 R122, R123). -/
def execIllegalSpl (s : State) : Result := illegalTrap s

/-- 0070dd, PDP-11/45 and /70 only (30 R122, R123). -/
def execIllegalCsm (s : State) : Result := illegalTrap s

/-- 007100-007177 (30 R122, R123). -/
def execIllegal007100 (s : State) : Result := illegalTrap s

/-- 0072dd, multiprocessor machines (30 R122, R123). -/
def execIllegalTstset (s : State) : Result := illegalTrap s

/-- 0073dd, multiprocessor machines (30 R122, R123). -/
def execIllegalWrtlck (s : State) : Result := illegalTrap s

/-- 007400-007777 (30 R122, R123). -/
def execIllegal007400 (s : State) : Result := illegalTrap s

/-- 075000-075777, floating point instruction set, optional, not fitted (30 R122, R123). -/
def execIllegalFis (s : State) : Result := illegalTrap s

/-- 076000-076777, commercial instruction set, other models (30 R122, R123). -/
def execIllegalCis (s : State) : Result := illegalTrap s

/-- 1064dd, other models (30 R122, R123). -/
def execIllegalMtps (s : State) : Result := illegalTrap s

/-- 1065dd, PDP-11/45 and /70 only (30 R122, R123). -/
def execIllegalMfpd (s : State) : Result := illegalTrap s

/-- 1066dd, PDP-11/45 and /70 only (30 R122, R123). -/
def execIllegalMtpd (s : State) : Result := illegalTrap s

/-- 1067dd, other models (30 R122, R123). -/
def execIllegalMfps (s : State) : Result := illegalTrap s

/-- 107000-107777 (30 R122, R123). -/
def execIllegal107000 (s : State) : Result := illegalTrap s

/-- 170000-177777, floating point processor, PDP-11/70, optional for /45 (30 R122, R123). -/
def execIllegalFp11 (s : State) : Result := illegalTrap s

end Sys2Proof.Machine
end

