-- ==== Sys2Proof/Machine/Jump.lean ====
section
/-! DEFINITION. Jumps and subroutine linkage (43_jump_subroutine.md): `jmp rts jsr mark sob`. -/

namespace Sys2Proof.Machine

/-- `&d`, the address of a destination that is no register (43 R210). A register raises `IllegalInstruction`, before anything is
done: mode 0 changes nothing (30 R111, R124). -/
def addressOf (dd : Operand) : Action Word := do
  let loc ← operand .word dd
  match loc with
  | .mem ea _ => return ea
  | .reg _ => raise .illegalInstruction

/-- `jmp` (43 R210). -/
def execJmp (dd : Operand) (s : State) : Result :=
  runInstr (do
    let ea ← addressOf dd
    writeReg .pc ea) s

/-- The codes of `jmp` with mode 0: trap at 010 (30 R124). -/
def execJmpMode0 (s : State) : Result := runInstr (raise .illegalInstruction) s

/-- `rts` (43 R211). -/
def execRts (r : Reg) (s : State) : Result :=
  runInstr (do
    let target ← readReg r
    writeReg .pc target
    let t ← pop
    writeReg r t) s

/-- `jsr` (43 R212): the destination is evaluated before the push. -/
def execJsr (r : Reg) (dd : Operand) (s : State) : Result :=
  runInstr (do
    let ea ← addressOf dd
    let t ← readReg r
    push t
    let back ← readReg .pc
    writeReg r back
    writeReg .pc ea) s

/-- The codes of `jsr` with mode 0: trap at 010, nothing pushed (30 R124). -/
def execJsrMode0 (s : State) : Result := runInstr (raise .illegalInstruction) s

/-- A count of words in bytes (30 R117). -/
def wordCount (nn : BitVec 6) : Word := 2 * nn.setWidth 16

/-- `mark` (43 R213). -/
def execMark (nn : BitVec 6) (s : State) : Result :=
  runInstr (do
    let pc ← readReg .pc
    writeReg .sp (pc + wordCount nn)
    let fp ← readReg .r5
    writeReg .pc fp
    let t ← pop
    writeReg .r5 t) s

/-- `sob` (43 R214): backwards only, no flag touched. -/
def execSob (r : Reg) (nn : BitVec 6) (s : State) : Result :=
  runInstr (do
    let x ← readReg r
    writeReg r (x - 1)
    if x - 1 = 0 then pure ()
    else do
      let pc ← readReg .pc
      writeReg .pc (pc - wordCount nn)) s

end Sys2Proof.Machine
end

