-- ==== Sys2Proof/Machine/SingleOp.lean ====
section
/-! DEFINITION. The single-operand instructions and the previous-space moves (41_cc_single_operand.md). -/

namespace Sys2Proof.Machine

/-- `swab` (41 R153). -/
def execSwab (dd : Operand) (s : State) : Result := runInstr (rmwWord swabOp dd) s

/-- `clr` (41 R154). -/
def execClr (dd : Operand) (s : State) : Result := runInstr (putWordTo clrOp dd) s

/-- `clrb` (41 R155). -/
def execClrb (dd : Operand) (s : State) : Result := runInstr (putByteTo clrOp dd) s

/-- `com` (41 R156). -/
def execCom (dd : Operand) (s : State) : Result := runInstr (rmwWord comOp dd) s

/-- `comb` (41 R157). -/
def execComb (dd : Operand) (s : State) : Result := runInstr (rmwByte comOp dd) s

/-- `inc` (41 R158). -/
def execInc (dd : Operand) (s : State) : Result := runInstr (rmwWord incOp dd) s

/-- `incb` (41 R159). -/
def execIncb (dd : Operand) (s : State) : Result := runInstr (rmwByte incOp dd) s

/-- `dec` (41 R160). -/
def execDec (dd : Operand) (s : State) : Result := runInstr (rmwWord decOp dd) s

/-- `decb` (41 R161). -/
def execDecb (dd : Operand) (s : State) : Result := runInstr (rmwByte decOp dd) s

/-- `neg` (41 R162). -/
def execNeg (dd : Operand) (s : State) : Result := runInstr (rmwWord negOp dd) s

/-- `negb` (41 R163). -/
def execNegb (dd : Operand) (s : State) : Result := runInstr (rmwByte negOp dd) s

/-- `adc` (41 R164). -/
def execAdc (dd : Operand) (s : State) : Result := runInstr (rmwWord adcOp dd) s

/-- `adcb` (41 R165). -/
def execAdcb (dd : Operand) (s : State) : Result := runInstr (rmwByte adcOp dd) s

/-- `sbc` (41 R166). -/
def execSbc (dd : Operand) (s : State) : Result := runInstr (rmwWord sbcOp dd) s

/-- `sbcb` (41 R167). -/
def execSbcb (dd : Operand) (s : State) : Result := runInstr (rmwByte sbcOp dd) s

/-- `tst` (41 R168). -/
def execTst (dd : Operand) (s : State) : Result := runInstr (testWord tstOp dd) s

/-- `tstb` (41 R169). -/
def execTstb (dd : Operand) (s : State) : Result := runInstr (testByte tstOp dd) s

/-- `ror` (41 R170). -/
def execRor (dd : Operand) (s : State) : Result := runInstr (rmwWord rorOp dd) s

/-- `rorb` (41 R171). -/
def execRorb (dd : Operand) (s : State) : Result := runInstr (rmwByte rorOp dd) s

/-- `rol` (41 R172). -/
def execRol (dd : Operand) (s : State) : Result := runInstr (rmwWord rolOp dd) s

/-- `rolb` (41 R173). -/
def execRolb (dd : Operand) (s : State) : Result := runInstr (rmwByte rolOp dd) s

/-- `asr` (41 R174). -/
def execAsr (dd : Operand) (s : State) : Result := runInstr (rmwWord asrOp dd) s

/-- `asrb` (41 R175). -/
def execAsrb (dd : Operand) (s : State) : Result := runInstr (rmwByte asrOp dd) s

/-- `asl` (41 R176). -/
def execAsl (dd : Operand) (s : State) : Result := runInstr (rmwWord aslOp dd) s

/-- `aslb` (41 R177). -/
def execAslb (dd : Operand) (s : State) : Result := runInstr (rmwByte aslOp dd) s

/-- `sxt` (41 R180). -/
def execSxt (dd : Operand) (s : State) : Result := runInstr (putWordTo sxtOp dd) s

/-- The previous mode, as it stands now (20 R81). -/
def previousMode : Action Mode := fun s => .ok s.prevMode s

/-- The operand of `mfpi`: SP is the previous mode's, memory is the previous mode's space (41 R178, 20 R81). -/
def loadPrevious : Loc → Action Word
  | .reg .sp => fun s => .ok (s.stackPointer s.prevMode) s
  | .reg r => readReg r
  | .mem ea _ => do
    let mode ← previousMode
    memReadWordIn mode ea

/-- The destination of `mtpi`: SP is the previous mode's, memory is the previous mode's space (41 R179, 20 R81; log 13, 14). -/
def storePrevious (loc : Loc) (v : Word) : Action Bool :=
  match loc with
  | .reg .sp => fun s => .ok false (s.setStackPointer s.prevMode v)
  | .reg r => do
    writeReg r v
    return false
  | .mem ea pushed => do
    let mode ← previousMode
    storeWordIn mode (.mem ea pushed) v

/-- `mfpi` (41 R178). -/
def execMfpi (ss : Operand) (s : State) : Result :=
  runInstr (do
    let loc ← operand .word ss
    let v ← loadPrevious loc
    push v
    let old ← readFlags
    writeFlags (logicFlags old v)) s

/-- `mtpi` (41 R179): the pop comes first. -/
def execMtpi (dd : Operand) (s : State) : Result :=
  runInstr (do
    let v ← pop
    let loc ← operand .word dd
    let hit ← storePrevious loc v
    let old ← readFlags
    assignFlags hit (logicFlags old v)) s

end Sys2Proof.Machine
end

