-- ==== Sys2Proof/Machine/Special.lean ====
section
/-! DEFINITION. Traps and other special instructions (40_traps_special.md): `halt wait rti bpt iot reset rtt emt sys`. -/

namespace Sys2Proof.Machine

/-- Change the run state (60 R258). -/
def setRun (r : RunState) : Action Unit := fun s => .ok () { s with run := r }

/-- Set `trace_inhibit` (40 R147, 60 R256). -/
def inhibitTrace : Action Unit := fun s => .ok () { s with traceInhibit := true }

/-- The requests that stay pending where some are withdrawn (40 R146). -/
def requestsLeft (w : Withdrawal) (l : List Request) : List Request :=
  match w with
  | .every => []
  | .only gone => l.filter (· ∉ gone)

/-- The word an action of RESET_EFFECT leaves in a register that holds `old` (40 R146). -/
def actionValue (a : RegisterAction) (old : Word) : Action Word :=
  match a with
  | .load keep value => pure ((old &&& keep) ||| value)
  | .anyValue => drawWord

/-- One action of RESET_EFFECT on a register of the I/O page (40 R146). -/
def resetRegister (a : RegisterReset) : Action Unit := do
  let s ← get
  let v ← actionValue a.action (s.ioOld a.reg)
  ioLoad a.reg v

/-- The actions of RESET_EFFECT on the registers of the I/O page, one after the other (40 R146). -/
def resetRegisters : List RegisterReset → Action Unit
  | [] => pure ()
  | a :: rest => do
    resetRegister a
    resetRegisters rest

/-- RESET_EFFECT, as the platform's parameter has it: the devices' requests, then the registers (40 R146, log 5). -/
def resetDevices : Action Unit := do
  let s ← get
  set { s with pending := requestsLeft s.cfg.resetEffect.withdraw s.pending }
  resetRegisters s.cfg.resetEffect.registers

/-- `halt` (40 R141): stop in kernel mode, trap at 004 in user mode. -/
def execHalt (s : State) : Result :=
  runInstr (do
    let mode ← currentMode
    match mode with
    | .kernel => setRun .halted
    | .user => raise .busError) s

/-- `wait` (40 R142). -/
def execWait (s : State) : Result := runInstr (setRun .waiting) s

/-- `rti` (40 R143). -/
def execRti (s : State) : Result := runInstr returnFromTrap s

/-- `bpt` (40 R144): trap at 014. -/
def execBpt (s : State) : Result := runInstr (raise .breakpoint) s

/-- `iot` (40 R145): trap at 020. -/
def execIot (s : State) : Result := runInstr (raise .ioTrap) s

/-- `reset` (40 R146): RESET_EFFECT in kernel mode, nothing in user mode. -/
def execReset (s : State) : Result :=
  runInstr (do
    let mode ← currentMode
    match mode with
    | .kernel => resetDevices
    | .user => pure ()) s

/-- `rtt` (40 R147): as `rti`, and the trace trap is held off once. -/
def execRtt (s : State) : Result :=
  runInstr (do
    returnFromTrap
    inhibitTrace) s

/-- `emt` (40 R148): trap at 030; the low byte of the code is the handler's to read. -/
def execEmt (s : State) : Result := runInstr (raise .emulatorTrap) s

/-- `sys` (40 R149): trap at 034; the low byte of the code is the handler's to read. -/
def execSys (s : State) : Result := runInstr (raise .systemTrap) s

end Sys2Proof.Machine
end

