-- ==== Sys2Proof/Machine/Dispatch.lean ====
section
/-! DEFINITION. What an instruction does to the state that its instruction word's fetch left (40 R140): one arm per constructor. -/

namespace Sys2Proof.Machine

/-- The meaning of an instruction, its own trap taken; the checks at the end of an instruction are `step`'s (60 R266). -/
def exec (i : Instr) (s : State) : Host.Outcome State Fault Refusal :=
  match i with
  | .halt => Sys2Proof.Machine.execHalt s
  | .wait => Sys2Proof.Machine.execWait s
  | .rti => Sys2Proof.Machine.execRti s
  | .bpt => Sys2Proof.Machine.execBpt s
  | .iot => Sys2Proof.Machine.execIot s
  | .reset => Sys2Proof.Machine.execReset s
  | .rtt => Sys2Proof.Machine.execRtt s
  | .illegalMfpt => Sys2Proof.Machine.execIllegalMfpt s
  | .illegal000010 _ => Sys2Proof.Machine.execIllegal000010 s
  | .illegal000020 _ => Sys2Proof.Machine.execIllegal000020 s
  | .illegal000040 _ => Sys2Proof.Machine.execIllegal000040 s
  | .jmpMode0 _ => Sys2Proof.Machine.execJmpMode0 s
  | .jmp dd => Sys2Proof.Machine.execJmp dd s
  | .rts r => Sys2Proof.Machine.execRts r s
  | .illegal000210 _ => Sys2Proof.Machine.execIllegal000210 s
  | .illegal000220 _ => Sys2Proof.Machine.execIllegal000220 s
  | .illegalSpl _ => Sys2Proof.Machine.execIllegalSpl s
  | .clcc m => Sys2Proof.Machine.execClcc m s
  | .secc m => Sys2Proof.Machine.execSecc m s
  | .swab dd => Sys2Proof.Machine.execSwab dd s
  | .br nn => Sys2Proof.Machine.execBr nn s
  | .bne nn => Sys2Proof.Machine.execBne nn s
  | .beq nn => Sys2Proof.Machine.execBeq nn s
  | .bge nn => Sys2Proof.Machine.execBge nn s
  | .blt nn => Sys2Proof.Machine.execBlt nn s
  | .bgt nn => Sys2Proof.Machine.execBgt nn s
  | .ble nn => Sys2Proof.Machine.execBle nn s
  | .jsrMode0 _ _ => Sys2Proof.Machine.execJsrMode0 s
  | .jsr r dd => Sys2Proof.Machine.execJsr r dd s
  | .clr dd => Sys2Proof.Machine.execClr dd s
  | .com dd => Sys2Proof.Machine.execCom dd s
  | .inc dd => Sys2Proof.Machine.execInc dd s
  | .dec dd => Sys2Proof.Machine.execDec dd s
  | .neg dd => Sys2Proof.Machine.execNeg dd s
  | .adc dd => Sys2Proof.Machine.execAdc dd s
  | .sbc dd => Sys2Proof.Machine.execSbc dd s
  | .tst dd => Sys2Proof.Machine.execTst dd s
  | .ror dd => Sys2Proof.Machine.execRor dd s
  | .rol dd => Sys2Proof.Machine.execRol dd s
  | .asr dd => Sys2Proof.Machine.execAsr dd s
  | .asl dd => Sys2Proof.Machine.execAsl dd s
  | .mark nn => Sys2Proof.Machine.execMark nn s
  | .mfpi ss => Sys2Proof.Machine.execMfpi ss s
  | .mtpi dd => Sys2Proof.Machine.execMtpi dd s
  | .sxt dd => Sys2Proof.Machine.execSxt dd s
  | .illegalCsm _ => Sys2Proof.Machine.execIllegalCsm s
  | .illegal007100 _ => Sys2Proof.Machine.execIllegal007100 s
  | .illegalTstset _ => Sys2Proof.Machine.execIllegalTstset s
  | .illegalWrtlck _ => Sys2Proof.Machine.execIllegalWrtlck s
  | .illegal007400 _ => Sys2Proof.Machine.execIllegal007400 s
  | .mov ss dd => Sys2Proof.Machine.execMov ss dd s
  | .cmp ss dd => Sys2Proof.Machine.execCmp ss dd s
  | .bit ss dd => Sys2Proof.Machine.execBit ss dd s
  | .bic ss dd => Sys2Proof.Machine.execBic ss dd s
  | .bis ss dd => Sys2Proof.Machine.execBis ss dd s
  | .add ss dd => Sys2Proof.Machine.execAdd ss dd s
  | .mul r ss => Sys2Proof.Machine.execMul r ss s
  | .div r ss => Sys2Proof.Machine.execDiv r ss s
  | .ash r ss => Sys2Proof.Machine.execAsh r ss s
  | .ashc r ss => Sys2Proof.Machine.execAshc r ss s
  | .xor r dd => Sys2Proof.Machine.execXor r dd s
  | .illegalFis _ => Sys2Proof.Machine.execIllegalFis s
  | .illegalCis _ => Sys2Proof.Machine.execIllegalCis s
  | .sob r nn => Sys2Proof.Machine.execSob r nn s
  | .bpl nn => Sys2Proof.Machine.execBpl nn s
  | .bmi nn => Sys2Proof.Machine.execBmi nn s
  | .bhi nn => Sys2Proof.Machine.execBhi nn s
  | .blos nn => Sys2Proof.Machine.execBlos nn s
  | .bvc nn => Sys2Proof.Machine.execBvc nn s
  | .bvs nn => Sys2Proof.Machine.execBvs nn s
  | .bcc nn => Sys2Proof.Machine.execBcc nn s
  | .bcs nn => Sys2Proof.Machine.execBcs nn s
  | .emt _ => Sys2Proof.Machine.execEmt s
  | .sys _ => Sys2Proof.Machine.execSys s
  | .clrb dd => Sys2Proof.Machine.execClrb dd s
  | .comb dd => Sys2Proof.Machine.execComb dd s
  | .incb dd => Sys2Proof.Machine.execIncb dd s
  | .decb dd => Sys2Proof.Machine.execDecb dd s
  | .negb dd => Sys2Proof.Machine.execNegb dd s
  | .adcb dd => Sys2Proof.Machine.execAdcb dd s
  | .sbcb dd => Sys2Proof.Machine.execSbcb dd s
  | .tstb dd => Sys2Proof.Machine.execTstb dd s
  | .rorb dd => Sys2Proof.Machine.execRorb dd s
  | .rolb dd => Sys2Proof.Machine.execRolb dd s
  | .asrb dd => Sys2Proof.Machine.execAsrb dd s
  | .aslb dd => Sys2Proof.Machine.execAslb dd s
  | .illegalMtps _ => Sys2Proof.Machine.execIllegalMtps s
  | .illegalMfpd _ => Sys2Proof.Machine.execIllegalMfpd s
  | .illegalMtpd _ => Sys2Proof.Machine.execIllegalMtpd s
  | .illegalMfps _ => Sys2Proof.Machine.execIllegalMfps s
  | .illegal107000 _ => Sys2Proof.Machine.execIllegal107000 s
  | .movb ss dd => Sys2Proof.Machine.execMovb ss dd s
  | .cmpb ss dd => Sys2Proof.Machine.execCmpb ss dd s
  | .bitb ss dd => Sys2Proof.Machine.execBitb ss dd s
  | .bicb ss dd => Sys2Proof.Machine.execBicb ss dd s
  | .bisb ss dd => Sys2Proof.Machine.execBisb ss dd s
  | .sub ss dd => Sys2Proof.Machine.execSub ss dd s
  | .illegalFp11 _ => Sys2Proof.Machine.execIllegalFp11 s

end Sys2Proof.Machine
end

