-- ==== Sys2Proof/Machine/Step.lean ====
section
/-! DEFINITION. One cycle of the processor (60_exceptions.md R266), the start of a run, and the placing of an instruction. -/

namespace Sys2Proof.Machine

/-- Fetch the instruction word, its address noted for MMR2 (60 R266). -/
def fetchInstr (s : State) : EStateM.Result Abort State Word :=
  fetchWord { s with ia := s.pc, trapTaken := false }

/-- Execute an instruction word: what it decodes to; a word no row reads is an illegal one (30 R121). -/
def execWord (w : Word) (s : State) : Result :=
  match decodeWord w with
  | some i => exec i s
  | none => takeTrap .illegalInstruction s

/-- The checks at the end of an instruction that did not end in a trap (60 R247, R256, R266): a yellow stack trap, else a trace
trap, unless the processor has stopped running (`halt` and `wait` push nothing). -/
def endOfInstruction (s : State) : Result :=
  if s.run ≠ .running then .next { s with yellowPending := false, traceInhibit := false }
  else if s.yellowPending then trapAt 0o004 { s with yellowPending := false, traceInhibit := false }
  else if pswT s.psw && !s.traceInhibit then trapAt 0o014 { s with traceInhibit := false }
  else .next { s with traceInhibit := false }

/-- What follows an instruction: its checks, or nothing where it ended in a trap sequence (60 R256, R266). -/
def afterInstr : Result → Result
  | .next s => if s.trapTaken then .next { s with trapTaken := false } else endOfInstruction s
  | .fault f => .fault f
  | .refused r => .refused r

/-- Fetch and execute one instruction, with its checks (60 R266). -/
def instrCycle (s : State) : Result :=
  match fetchInstr s with
  | .ok w s1 => afterInstr (execWord w s1)
  | .error (.raised e) s1 => afterInstr (takeTrap e s1)
  | .error (.refusal r) _ => .refused r

/-- One cycle of the processor (60 R266): a halted processor stays as it is (log 10); else an acceptable interrupt request is
accepted; else a waiting processor stays as it is; else an instruction runs. -/
def step (s : State) : Host.Outcome State Fault Refusal :=
  match s.run with
  | .halted => .next s
  | .waiting =>
    match chooseRequest s with
    | some (q, s1) => acceptRequest q s1
    | none => .next s
  | .running =>
    match chooseRequest s with
    | some (q, s1) => acceptRequest q s1
    | none => instrCycle s

/-- Place bytes in memory from a physical address on, those below MEM_TOP. -/
def placeBytes : State → Nat → List Byte → State
  | s, _, [] => s
  | s, a, b :: rest => placeBytes (if a < s.cfg.memTop then s.putByte a b else s) (a + 1) rest

/-- The parameters of a run (70 R292); the platform's own are in `Config`. -/
structure LaunchParams where
  /-- IMAGE: bytes placed in memory, those below MEM_TOP -/
  image : List Host.Cell
  /-- LAUNCH_PC -/
  pc : Word
  /-- SR_VALUE: what the switches show -/
  switches : Word
  /-- SR_VALUE as it goes on to vary in time (log 3) -/
  switchMoves : List Word
  /-- the initial requests of DEVICES -/
  requests : List Request
deriving DecidableEq, Repr

/-- The start of a run (70 R292): the power-up state with a platform's parameters, IMAGE placed in memory, the PC at LAUNCH_PC, the
switches as SR_VALUE has them and the initial requests of DEVICES pending. -/
def State.launch (cfg : Config) (p : LaunchParams) : State :=
  p.requests.foldl (fun s q => requestInterrupt q s) <|
    p.image.foldl (fun s cell => placeBytes s cell.1 [cell.2])
      { State.reset with cfg := cfg, pc := p.pc, sr := p.switches, switchMoves := p.switchMoves }

/-- The state with an instruction stored where `step` fetches the next one: at the physical address of the PC, its in-line words
zero; the processor runs and no interrupt request comes first (log 6). -/
def State.withFetchWord (s : State) (nbits w : Nat) : State :=
  placeBytes { s with run := .running, pending := [] } (s.physAddr s.mode s.pc).toNat (tableBytes nbits w)

end Sys2Proof.Machine
end

