-- ==== Sys2Proof/Safety.lean ====
section
/-! DEFINITION. The words statements are made in: the legal platforms, the invariant of the machine, what a frame speaks of
(register cells, stored bytes, the other registers), and the states a completed instruction ends in. -/

namespace Sys2Proof.Machine

/-! ## Legal platforms and states -/

/-- Parameters within the bounds of 00 R6 (MEM_TOP) and R9 (DEVICES own addresses in the I/O page that 20 R64 does not assign). -/
def configWf (c : Config) : Bool :=
  c.memTop % 2 == 0 && decide (0 < c.memTop) && decide (c.memTop ≤ 0o760000) &&
    c.deviceAddrs.all fun a => decide (0o760000 ≤ a) && decide (a < 0o1000000) && (ioRegAt (BitVec.ofNat 18 a)).isNone

/-- A request an environment may raise: BR in 1 to 7, the vector a multiple of 4 below 0400 (60 R250). -/
def requestWf (q : Request) : Bool :=
  q.br != 0 && q.vector.toNat % 4 == 0 && decide (q.vector.toNat < 0o400)

/-- The keys of the requests are above `k` and rise. -/
def requestsRise (k : Nat) : List Request → Bool
  | [] => true
  | q :: rest => decide (k < requestKey q) && requestsRise (requestKey q) rest

/-- The set of pending requests: legal requests, listed once each in one order. -/
def requestsWf (l : List Request) : Bool := l.all requestWf && requestsRise 0 l

/-- What every piece of an instruction keeps: the memory in its canonical form and below MEM_TOP (10 R41, 00 R6), no bit set where
the PSW (10 R25 to R27), MMR0 (20 R78), a PAR (R71) or a PDR (R72) holds none, no reserved mode (10 R26), legal requests (60 R250)
and a legal platform. -/
structure CoreInv (s : State) : Prop where
  platform : configWf s.cfg = true
  memory : Memory.wf s.mem = true
  memoryBelow : memBelow s.cfg.memTop s.mem = true
  pswReserved : pswRead s.psw = s.psw
  pswModes : pswWritable s.psw = true
  mmr0 : s.mmr0 &&& mmr0Mask = s.mmr0
  par : ∀ mode page, s.par mode page &&& parMask = s.par mode page
  pdr : ∀ mode page, s.pdr mode page &&& pdrMask = s.pdr mode page
  requests : requestsWf s.pending = true

/-- The invariant of the machine between steps: in addition, nothing that lives only inside an instruction is set (10 R35). -/
structure Inv (s : State) : Prop extends CoreInv s where
  noYellow : s.yellowPending = false
  noInhibit : s.traceInhibit = false
  noTrap : s.trapTaken = false

/-! ## Register cells -/

/-- The general registers as they are stored: R6 twice, once for each mode (10 R21, R23); the PC is not among them. -/
inductive RegCell where
  | r0 | r1 | r2 | r3 | r4 | r5 | ksp | usp
deriving DecidableEq, Repr

/-- The word a register cell holds. -/
def State.cell (s : State) : RegCell → Word
  | .r0 => s.r0
  | .r1 => s.r1
  | .r2 => s.r2
  | .r3 => s.r3
  | .r4 => s.r4
  | .r5 => s.r5
  | .ksp => s.ksp
  | .usp => s.usp

/-- The stack pointer of a mode (10 R23). -/
def spCell : Mode → RegCell
  | .kernel => .ksp
  | .user => .usp

/-- The cell a register number means in a mode; none for the PC (10 R21 to R23). -/
def cellOf (mode : Mode) : Reg → Option RegCell
  | .r0 => some .r0
  | .r1 => some .r1
  | .r2 => some .r2
  | .r3 => some .r3
  | .r4 => some .r4
  | .r5 => some .r5
  | .sp => some (spCell mode)
  | .pc => none

/-- The register an address mode steps: modes 2 to 5 (30 R111). -/
def steppedCell (mode : Mode) (o : Operand) : Option RegCell :=
  match o.mode with
  | .autoInc | .autoIncIndirect | .autoDec | .autoDecIndirect => cellOf mode o.reg
  | .register | .indirect | .index | .indexIndirect => none

/-- The register a location names (30 R111). -/
def locCell (mode : Mode) : Loc → Option RegCell
  | .reg r => cellOf mode r
  | .mem _ _ => none

/-- Every register cell but those named holds what it held. -/
def cellsKept (s t : State) (changed : List (Option RegCell)) : Prop :=
  ∀ c, some c ∉ changed → t.cell c = s.cell c

/-! ## Stored bytes -/

/-- The bytes of a width (30 R101). -/
def widthBytes : Width → Nat
  | .word => 2
  | .byte => 1

/-- The physical address `a` is one of the bytes a store of this width to this location writes, in the address space of `mode`
as the state `s` maps it (20 R54, R60). -/
def storesTo (w : Width) (mode : Mode) (s : State) (loc : Loc) (a : Nat) : Prop :=
  match loc with
  | .reg _ => False
  | .mem ea _ => (s.physAddr mode ea).toNat ≤ a ∧ a < (s.physAddr mode ea).toNat + widthBytes w

/-- Every byte of memory but those the store writes reads as before. -/
def bytesKept (w : Width) (mode : Mode) (s' : State) (loc : Loc) (s t : State) : Prop :=
  ∀ a, ¬ storesTo w mode s' loc a → t.byteAt a = s.byteAt a

/-- Every byte of memory reads as before. -/
def memoryKept (s t : State) : Prop := ∀ a, t.byteAt a = s.byteAt a

/-! ## The other registers -/

/-- The switches moved as the operator set them: some of the settings to come have passed, and SR shows the last of these, or what it
showed where none passed (10 R33, log 3). -/
def switchesFollow (s t : State) : Prop :=
  ∃ n, t.sr = (s.switchMoves.take n).getLastD s.sr ∧ t.switchMoves = s.switchMoves.drop n

/-- Everything that is neither a general register, the PC, the PSW, memory nor the counter of free values is as it was, but for the
switches, which move as the operator set them (log 3). -/
def othersKept (s t : State) : Prop :=
  switchesFollow s t ∧ t.dr = s.dr ∧ t.mmr0 = s.mmr0 ∧ t.mmr2 = s.mmr2 ∧ t.kernelPar = s.kernelPar ∧ t.kernelPdr = s.kernelPdr ∧
    t.userPar = s.userPar ∧ t.userPdr = s.userPdr ∧ t.pending = s.pending ∧ t.traceInhibit = s.traceInhibit ∧ t.run = s.run ∧
    t.yellowPending = s.yellowPending ∧ t.ia = s.ia ∧ t.cfg = s.cfg

/-- The PSW is as it was above its condition codes (10 R25). -/
def pswAboveKept (s t : State) : Prop := t.psw = pswWithFlags s.psw t.flags

/-- The register of the I/O page a location reaches in the address space of `mode` as the state `s` maps it (20 R62, R64). -/
def ioTarget (mode : Mode) (s : State) : Loc → Option IoReg
  | .reg _ => none
  | .mem ea _ => if (s.physAddr mode ea).toNat < s.cfg.memTop then none else ioRegAt (s.physAddr mode ea)

/-- The page whose PDR records the write: the one the MMU translated the location through (20 R61, R76). -/
def writtenPage (mode : Mode) (s : State) : Loc → Option (Mode × BitVec 3)
  | .reg _ => none
  | .mem ea _ => if mmuEnabled s.mmr0 then some (mode, pageOf ea) else none

/-- The location is one of the yellow stack: tagged as a push by a program in kernel mode, below 0400 (20 R67). -/
def yellowPush (mode : Mode) : Loc → Bool
  | .reg _ => false
  | .mem ea pushed => pushed && mode == .kernel && decide (ea < 0o400)

/-- What a store to `loc` in the address space of `space`, by a program whose mode is `s'.mode`, leaves of the other registers:
a register of the I/O page changes only where the store reaches it, bit C of a PDR only where the store was translated through it,
`yellowPending` only on a push below 0400; the rest is as it was (20 R61, R64 to R67, R76). -/
def othersAfterStore (space : Mode) (s' : State) (loc : Loc) (s t : State) : Prop :=
  switchesFollow s t ∧ t.mmr2 = s.mmr2 ∧ t.pending = s.pending ∧ t.traceInhibit = s.traceInhibit ∧ t.run = s.run ∧ t.ia = s.ia ∧
    t.cfg = s.cfg ∧
    (ioTarget space s' loc ≠ some .switches → t.dr = s.dr) ∧
    (ioTarget space s' loc ≠ some .mmr0 → t.mmr0 = s.mmr0) ∧
    (∀ mode page, ioTarget space s' loc ≠ some (.par mode page) → t.par mode page = s.par mode page) ∧
    (∀ mode page, ioTarget space s' loc ≠ some (.pdr mode page) →
      t.pdr mode page = if writtenPage space s' loc = some (mode, page) then pdrSetC (s.pdr mode page) else s.pdr mode page) ∧
    t.yellowPending = (s.yellowPending || yellowPush s'.mode loc)

/-- What a register of the I/O page holds; DR for the pair at 0777570 (20 R64, R66). -/
def State.ioHeld (s : State) : IoReg → Word
  | .pdr mode page => s.pdr mode page
  | .par mode page => s.par mode page
  | .switches => s.dr
  | .mmr0 => s.mmr0
  | .mmr2 => s.mmr2
  | .psw => s.psw

/-- The bits a register of the I/O page has (10 R27, 20 R66, R71, R72, R78, R79). -/
def ioBits : IoReg → Word
  | .pdr _ _ => 0o077516
  | .par _ _ => 0o007777
  | .switches => 0o177777
  | .mmr0 => 0o016157
  | .mmr2 => 0o177777
  | .psw => 0o170377

/-- A word with one of its bytes replaced: the high one at an odd address (20 R62). -/
def byteReplaced (old va : Word) (b : Byte) : Word :=
  if va.getLsbD 0 = true then (old &&& 0o377) ||| (b.setWidth 16 <<< 8) else (old &&& 0o177400) ||| b.setWidth 16

/-- The end of a write that the MMU translated or not: bit C of the page's PDR, and whether the PSW was reached (20 R61, R65, R76). -/
def afterIoWrite (mode : Mode) (va : Word) (r : IoReg) (s : State) :
    EStateM.Result Abort State Unit → EStateM.Result Abort State Bool
  | .ok _ t => .ok (r == .psw)
      (if mmuEnabled s.mmr0 then t.setPdr mode (pageOf va) (pdrSetC (t.pdr mode (pageOf va))) else t)
  | .error e t => .error e t

/-- What `reset` leaves in kernel mode: the requests RESET_EFFECT does not withdraw; in a register it names once, with a value, that
value; every other register and memory as they were (40 R146, log 5). -/
def resetLeaves (s t : State) : Prop :=
  let effect := s.cfg.resetEffect
  (∀ q, q ∈ t.pending ↔ q ∈ s.pending ∧ match effect.withdraw with | .every => False | .only gone => q ∉ gone) ∧
    (∀ r, r ∉ effect.registers.map (·.reg) → t.ioHeld r = s.ioHeld r) ∧
    (∀ r keep value, ⟨r, .load keep value⟩ ∈ effect.registers → (effect.registers.map (·.reg)).count r = 1 →
      t.ioHeld r = ((s.ioHeld r &&& keep) ||| value) &&& ioBits r) ∧
    cellsKept s t [] ∧ t.pc = s.pc ∧ memoryKept s t ∧ t.sr = s.sr ∧ t.switchMoves = s.switchMoves ∧ t.run = s.run ∧
    t.traceInhibit = s.traceInhibit ∧ t.yellowPending = s.yellowPending ∧ t.ia = s.ia ∧ t.trapTaken = s.trapTaken ∧ t.cfg = s.cfg

/-! ## How an instruction completes -/

/-- The state an instruction ends in after a store: the condition codes are assigned, but for a store that landed on the PSW at its
bus address (20 R65). -/
def afterCodes (hit : Bool) (s : State) (f : Flags) : State := if hit then s else s.setFlags f

/-- `i` reads the word operand `dd`, stores `result` back and assigns `codes`: from every state in which `dd` can be evaluated and read
and the result stored, it ends there (41 R150). Both are functions of the old condition codes and of the operand. -/
def UpdatesWord (i : Instr) (dd : Operand) (result : Flags → Word → Word) (codes : Flags → Word → Flags) : Prop :=
  ∀ (s s1 s2 s3 : State) (loc : Loc) (d : Word) (hit : Bool), operand .word dd s = .ok loc s1 → loadWord loc s1 = .ok d s2 →
    storeWord loc (result s2.flags d) s2 = .ok hit s3 → exec i s = .next (afterCodes hit s3 (codes s2.flags d))

/-- `UpdatesWord` for a byte operand (41 R150). -/
def UpdatesByte (i : Instr) (dd : Operand) (result : Flags → Byte → Byte) (codes : Flags → Byte → Flags) : Prop :=
  ∀ (s s1 s2 s3 : State) (loc : Loc) (d : Byte) (hit : Bool), operand .byte dd s = .ok loc s1 → loadByte loc s1 = .ok d s2 →
    storeByte loc (result s2.flags d) s2 = .ok hit s3 → exec i s = .next (afterCodes hit s3 (codes s2.flags d))

/-- `i` evaluates the source `ss` and reads it, then evaluates, reads and writes the destination `dd` (30 R115, 42 R190). -/
def CombinesWord (i : Instr) (ss dd : Operand) (result : Word → Word → Word) (codes : Flags → Word → Word → Flags) : Prop :=
  ∀ (s s1 s2 s3 s4 s5 : State) (locS locD : Loc) (x d : Word) (hit : Bool),
    operand .word ss s = .ok locS s1 → loadWord locS s1 = .ok x s2 → operand .word dd s2 = .ok locD s3 →
    loadWord locD s3 = .ok d s4 → storeWord locD (result x d) s4 = .ok hit s5 →
    exec i s = .next (afterCodes hit s5 (codes s4.flags x d))

/-- `CombinesWord` for byte operands. -/
def CombinesByte (i : Instr) (ss dd : Operand) (result : Byte → Byte → Byte) (codes : Flags → Byte → Byte → Flags) : Prop :=
  ∀ (s s1 s2 s3 s4 s5 : State) (locS locD : Loc) (x d : Byte) (hit : Bool),
    operand .byte ss s = .ok locS s1 → loadByte locS s1 = .ok x s2 → operand .byte dd s2 = .ok locD s3 →
    loadByte locD s3 = .ok d s4 → storeByte locD (result x d) s4 = .ok hit s5 →
    exec i s = .next (afterCodes hit s5 (codes s4.flags x d))

/-- `i` reads the source `ss`, then the destination `dd`, and only assigns `codes` (30 R115, 42 R190). -/
def ComparesWord (i : Instr) (ss dd : Operand) (codes : Flags → Word → Word → Flags) : Prop :=
  ∀ (s s1 s2 s3 s4 : State) (locS locD : Loc) (x d : Word),
    operand .word ss s = .ok locS s1 → loadWord locS s1 = .ok x s2 → operand .word dd s2 = .ok locD s3 →
    loadWord locD s3 = .ok d s4 → exec i s = .next (s4.setFlags (codes s4.flags x d))

/-- `ComparesWord` for byte operands. -/
def ComparesByte (i : Instr) (ss dd : Operand) (codes : Flags → Byte → Byte → Flags) : Prop :=
  ∀ (s s1 s2 s3 s4 : State) (locS locD : Loc) (x d : Byte),
    operand .byte ss s = .ok locS s1 → loadByte locS s1 = .ok x s2 → operand .byte dd s2 = .ok locD s3 →
    loadByte locD s3 = .ok d s4 → exec i s = .next (s4.setFlags (codes s4.flags x d))

/-- `exec` answers the next state `t` and the instruction did not end in a trap (60 R266, log 11). -/
def completes (i : Instr) (s t : State) : Prop := exec i s = .next t ∧ t.trapTaken = false

/-! ## Traps -/

/-- The trap sequence at the vector `n` runs from `s` and ends in `t` (60 R241): the vector's two words are fetched, the PSW is loaded,
the old PSW and PC are pushed, the PC is loaded. -/
def TrapRuns (n : Word) (s t : State) : Prop :=
  ∃ newPc newPs s1 s2, vectorFetch n s = .ok (newPc, newPs) s1 ∧
    trapPushes (pswRead s.psw) s.pc { s1 with psw := pswOfTrap s.psw newPs } = .ok () s2 ∧
    t = { s2 with pc := newPc, yellowPending := false, traceInhibit := false }

/-- The access to a kernel address reaches memory: the MMU, where it is on, allows it, and the physical address is below MEM_TOP (20 R60,
R62, R80). -/
def State.kernelAccess (s : State) (va : Word) (kind : Access) : Prop :=
  (mmuEnabled s.mmr0 = true → s.accessReasons .kernel va kind = 0) ∧ (s.physAddr .kernel va).toNat < s.cfg.memTop

/-- The paging registers after pushes at these kernel addresses: bit C of their pages where the MMU is on (20 R61, R76). -/
def pushedThrough (vas : List Word) (s t : State) : Prop :=
  (∀ mode page, t.par mode page = s.par mode page) ∧ (∀ page, t.pdr .user page = s.pdr .user page) ∧
    ∀ page, t.pdr .kernel page =
      if mmuEnabled s.mmr0 = true ∧ page ∈ vas.map pageOf then pdrSetC (s.pdr .kernel page) else s.pdr .kernel page

/-- The instruction `i` ends, from `s`, in the trap sequence at `n` and in nothing else: it answers what that sequence answers, with a
next state marked as a trap's; wherever the sequence runs through, that is the next state. -/
def TrapsAt (i : Instr) (n : Word) (s : State) : Prop :=
  exec i s = markTrap (trapAt n s) ∧ ∀ t, TrapRuns n s t → exec i s = .next { t with trapTaken := true }

/-! ## Protection -/

/-- A user program that the MMU confines to memory: mode and previous mode are user, the MMU is on, and every address it may write is
mapped below MEM_TOP, so that none reaches the I/O page (60 R260). -/
structure Confined (s : State) : Prop where
  user : s.mode = .user
  previous : s.prevMode = .user
  mapped : mmuEnabled s.mmr0 = true
  memoryOnly : ∀ va, s.accessReasons .user va .write = 0 → (s.physAddr .user va).toNat < s.cfg.memTop

/-- The byte of physical memory `a` is one a user program may write, alone or as the second byte of a word (20 R74). -/
def userWritable (s : State) (a : Nat) : Prop :=
  ∃ va, s.accessReasons .user va .write = 0 ∧ (a = (s.physAddr .user va).toNat ∨ a = (s.physAddr .user va).toNat + 1)

end Sys2Proof.Machine
end

