-- ==== Sys2Proof/Certificates/Slice0/Obligations.lean ====
section
/-! DEFINITION. The statements for the provers. A statement about an instruction's result has a next state as its conclusion; its
hypotheses speak of the state and of the operands (that they can be evaluated, read and stored). -/

open Sys2Proof Sys2Proof.Machine

/-! ## Encoding -/

/-- Decoding the encoding of a well-formed instruction gives it back, alone and at the head of a byte stream (30 R121). -/
def Obligations.DecodeOfEncode : Prop :=
  ∀ i : Instr, i.wellFormed = true →
    decodeWord (encode i) = some i ∧ ∀ rest, decodeBytes (encodeBytes i ++ rest) = .ok (i, rest)

/-- Every one of the 65536 words is the encoding of the one well-formed instruction it decodes to (30 R121). -/
def Obligations.EveryWordIsOneInstruction : Prop :=
  ∀ w : Word, ∃ i : Instr, decodeWord w = some i ∧ i.wellFormed = true ∧ encode i = w

/-- Words of the source's examples decode to the instructions they stand for (30 R128, 40 to 44). -/
def Obligations.SampleWordsDecode : Prop :=
  decodeWord 0o000000 = some .halt ∧ decodeWord 0o000002 = some .rti ∧ decodeWord 0o000137 = some (.jmp ⟨.autoIncIndirect, .pc⟩) ∧
    decodeWord 0o000207 = some (.rts .pc) ∧ decodeWord 0o000243 = some (.clcc 0b0011) ∧ decodeWord 0o000261 = some (.secc 0b0001) ∧
    decodeWord 0o000403 = some (.br 3) ∧ decodeWord 0o004737 = some (.jsr .pc ⟨.autoIncIndirect, .pc⟩) ∧
    decodeWord 0o105021 = some (.clrb ⟨.autoInc, .r1⟩) ∧ decodeWord 0o006402 = some (.mark 2) ∧
    decodeWord 0o006506 = some (.mfpi ⟨.register, .sp⟩) ∧ decodeWord 0o012700 = some (.mov ⟨.autoInc, .pc⟩ ⟨.register, .r0⟩) ∧
    decodeWord 0o160001 = some (.sub ⟨.register, .r0⟩ ⟨.register, .r1⟩) ∧ decodeWord 0o071002 = some (.div .r0 ⟨.register, .r2⟩) ∧
    decodeWord 0o077002 = some (.sob .r0 2) ∧ decodeWord 0o104404 = some (.sys 4) ∧ decodeWord 0o075000 = some (.illegalFis 0)

/-! ## The cycle of the processor -/

/-- A running processor that no request interrupts executes the instruction that the word at its PC decodes to, with the PC already
past that word; what step adds is `afterInstr` (60 R266, 10 R22). The second clause says it of the two bytes in memory. -/
def Obligations.StepRunsDecodedInstruction : Prop :=
  ∀ (s : State) (i : Instr), s.run = .running → (∀ q ∈ s.pending, ¬ pswIPL s.psw < q.br) → i.wellFormed = true →
    (∀ (w : Word) (s1 : State), memReadWordIn s.mode s.pc { s with ia := s.pc, trapTaken := false } = .ok w s1 →
      decodeWord w = some i → step s = afterInstr (exec i { s1 with pc := s.pc + 2 })) ∧
    (s.pc.getLsbD 0 = false → (mmuEnabled s.mmr0 = true → s.accessReasons s.mode s.pc .read = 0) →
      (s.physAddr s.mode s.pc).toNat < s.cfg.memTop →
      decodeBytes [s.byteAt (s.physAddr s.mode s.pc).toNat, s.byteAt ((s.physAddr s.mode s.pc).toNat + 1)] = .ok (i, []) →
      step s = afterInstr (exec i { s with ia := s.pc, trapTaken := false, pc := s.pc + 2 }))

/-- What follows an instruction that `exec` took to `t` (60 R247, R256, R266): nothing after a trap; else nothing where it stopped the
processor; else the yellow stack trap; else the trace trap; else the next cycle. -/
def Obligations.ChecksAfterInstruction : Prop :=
  ∀ (s s1 t : State) (i : Instr) (w : Word), s.run = .running → (∀ q ∈ s.pending, ¬ pswIPL s.psw < q.br) →
    memReadWordIn s.mode s.pc { s with ia := s.pc, trapTaken := false } = .ok w s1 → decodeWord w = some i →
    exec i { s1 with pc := s.pc + 2 } = .next t →
    step s =
      if t.trapTaken = true then .next { t with trapTaken := false }
      else if t.run ≠ .running then .next { t with yellowPending := false, traceInhibit := false }
      else if t.yellowPending = true then trapAt 0o004 { t with yellowPending := false, traceInhibit := false }
      else if pswT t.psw = true ∧ t.traceInhibit = false then trapAt 0o014 { t with traceInhibit := false }
      else .next { t with traceInhibit := false }

/-- A failing instruction fetch takes the trap of its exception with the PC not advanced (60 R243): BusError from an odd PC or where
nothing answers, MMUFault where the MMU turns the read down. -/
def Obligations.FetchFaultTraps : Prop :=
  ∀ (s s1 : State) (e : Exn), s.run = .running → (∀ q ∈ s.pending, ¬ pswIPL s.psw < q.br) →
    memReadWordIn s.mode s.pc { s with ia := s.pc, trapTaken := false } = .error (.raised e) s1 →
    s1.pc = s.pc ∧ step s = afterInstr (takeTrap e s1)

/-- A halted processor stays as it is, a waiting one as long as no request is above IPL (60 R258; the model's choice, log 10). -/
def Obligations.StoppedProcessorStays : Prop :=
  ∀ s : State, (s.run = .halted → step s = .next s) ∧
    (s.run = .waiting → (∀ q ∈ s.pending, ¬ pswIPL s.psw < q.br) → step s = .next s)

/-- Where some request is above IPL and the processor has not halted, one of the largest BR is accepted: it leaves the set, the processor
runs, and the trap sequence at its vector follows (60 R250, R266). -/
def Obligations.InterruptIsAccepted : Prop :=
  ∀ s : State, s.run ≠ .halted → (∃ q ∈ s.pending, pswIPL s.psw < q.br) →
    ∃ q ∈ s.pending, pswIPL s.psw < q.br ∧ (∀ p ∈ s.pending, p.br ≤ q.br) ∧
      ∃ n, step s = trapAt q.vector { s with pending := s.pending.filter (· ≠ q), run := .running, draws := n }

/-- The model's choice (logs 3, 4, 7; the spec lets the environment act at any time, 10 R33, 20 R91, 60 R266): within a step the
switches move only as the state's list of settings says, and no step changes the platform's parameters or adds a request. -/
def Obligations.StepKeepsInputs : Prop :=
  ∀ s t : State, step s = .next t → switchesFollow s t ∧ t.cfg = s.cfg ∧ ∀ q ∈ t.pending, q ∈ s.pending

/-! ## Reset and the invariant -/

/-- The power-up state: registers zero, PSW 0340, the MMU off, nothing written in memory, nothing inside an instruction (10 R40, 70 R291).
SR is no part of it: its value after reset is the model's choice (log 3). -/
def Obligations.ResetState : Prop :=
  let s := State.reset
  (∀ c, s.cell c = 0) ∧ s.pc = 0 ∧ s.psw = 0o340 ∧ s.mode = .kernel ∧ s.prevMode = .kernel ∧ pswIPL s.psw = 7 ∧ s.dr = 0 ∧
    s.mmr0 = 0 ∧ s.mmr2 = 0 ∧ mmuEnabled s.mmr0 = false ∧ (∀ mode page, s.par mode page = 0 ∧ s.pdr mode page = 0) ∧
    (∀ a, memLookup s.mem a = none) ∧ s.traceInhibit = false ∧ s.yellowPending = false ∧ s.run = .running

/-- The invariant holds after reset (the values it speaks of are the spec's but for the parameters, log 4, and the model's own fields, log 11). -/
def Obligations.ResetMeetsInv : Prop := Inv State.reset

/-- Every step keeps the invariant: the memory stays in its canonical form below MEM_TOP, no reserved mode and no bit that a register
does not have ever appears, and nothing inside an instruction survives it. -/
def Obligations.StepKeepsInv : Prop := ∀ s t : State, Inv s → step s = .next t → Inv t

/-- A user program that the MMU confines to memory cannot leave user mode but by a trap, nor touch what belongs to the kernel: from a
confined state, an instruction that does not end in a trap leaves the state confined, IPL, the kernel stack pointer, the MMU's registers
(but bit C of user PDRs), DR, the requests and every byte it may not write as they were, and does not halt (60 R260, R261, 20 R74). -/
def Obligations.UserModeIsConfined : Prop :=
  ∀ (s t : State) (i : Instr), Confined s → s.run = .running → completes i s t →
    Confined t ∧ pswIPL t.psw = pswIPL s.psw ∧ t.ksp = s.ksp ∧ t.mmr0 = s.mmr0 ∧ t.mmr2 = s.mmr2 ∧ t.dr = s.dr ∧
      t.pending = s.pending ∧ t.run ≠ .halted ∧ (∀ mode page, t.par mode page = s.par mode page) ∧
      (∀ page, t.pdr .kernel page = s.pdr .kernel page) ∧
      (∀ page, t.pdr .user page = s.pdr .user page ∨ t.pdr .user page = pdrSetC (s.pdr .user page)) ∧
      ∀ a, ¬ userWritable s a → t.byteAt a = s.byteAt a

/-! ## Operands -/

/-- The step of modes 2 and 4: the operand's width, but always 2 for SP and PC (30 R114). -/
def Obligations.StepAmounts : Prop :=
  ∀ r : Reg, stepOf .word r = 2 ∧ stepOf .byte r = if r = .sp ∨ r = .pc then 2 else 1

/-- The eight address modes (30 R111), for both widths: the location, the registers changed in the order written, the in-line word and
the pointer read; where a read fails, the operand fails there with the registers as they then stand. -/
def Obligations.AddressModes : Prop :=
  ∀ (w : Width) (r : Reg) (s : State),
    operand w ⟨.register, r⟩ s = .ok (.reg r) s ∧
    operand w ⟨.indirect, r⟩ s = .ok (.mem (s.reg r) false) s ∧
    operand w ⟨.autoInc, r⟩ s = .ok (.mem (s.reg r) false) (s.setReg r (s.reg r + stepOf w r)) ∧
    operand w ⟨.autoDec, r⟩ s =
      .ok (.mem (s.reg r - stepOf w r) (decide (r = .sp))) (s.setReg r (s.reg r - stepOf w r)) ∧
    (∀ ea s1, memReadWordIn s.mode (s.reg r) s = .ok ea s1 →
      operand w ⟨.autoIncIndirect, r⟩ s = .ok (.mem ea false) (s1.setReg r (s.reg r + 2))) ∧
    (∀ e s1, memReadWordIn s.mode (s.reg r) s = .error e s1 → operand w ⟨.autoIncIndirect, r⟩ s = .error e s1) ∧
    (∀ ea s1, memReadWordIn s.mode (s.reg r - 2) (s.setReg r (s.reg r - 2)) = .ok ea s1 →
      operand w ⟨.autoDecIndirect, r⟩ s = .ok (.mem ea false) s1) ∧
    (∀ e s1, memReadWordIn s.mode (s.reg r - 2) (s.setReg r (s.reg r - 2)) = .error e s1 →
      operand w ⟨.autoDecIndirect, r⟩ s = .error e s1) ∧
    (∀ idx s1, memReadWordIn s.mode s.pc s = .ok idx s1 →
      operand w ⟨.index, r⟩ s = .ok (.mem (idx + ({ s1 with pc := s.pc + 2 } : State).reg r) false) { s1 with pc := s.pc + 2 }) ∧
    (∀ e s1, memReadWordIn s.mode s.pc s = .error e s1 →
      operand w ⟨.index, r⟩ s = .error e s1 ∧ operand w ⟨.indexIndirect, r⟩ s = .error e s1) ∧
    (∀ idx ea s1 s2, memReadWordIn s.mode s.pc s = .ok idx s1 →
      memReadWordIn s.mode (idx + ({ s1 with pc := s.pc + 2 } : State).reg r) { s1 with pc := s.pc + 2 } = .ok ea s2 →
      operand w ⟨.indexIndirect, r⟩ s = .ok (.mem ea false) s2) ∧
    (∀ idx e s1 s2, memReadWordIn s.mode s.pc s = .ok idx s1 →
      memReadWordIn s.mode (idx + ({ s1 with pc := s.pc + 2 } : State).reg r) { s1 with pc := s.pc + 2 } = .error e s2 →
      operand w ⟨.indexIndirect, r⟩ s = .error e s2)

/-- Evaluating an operand specification and loading it change no register but the one the mode steps and the PC, no byte of memory, no
condition code and no other register; a read of the switches lets them move on (30 R111, R112; the model's choice, log 3), and that a read
of a device changes nothing is the model's choice too (logs 2, 8). -/
def Obligations.OperandFrame : Prop :=
  ∀ (o : Operand) (s s1 : State) (loc : Loc) (w : Width), operand w o s = .ok loc s1 →
    (cellsKept s s1 [steppedCell s.mode o] ∧ s1.psw = s.psw ∧ memoryKept s s1 ∧ othersKept s s1 ∧ s1.trapTaken = s.trapTaken) ∧
    (∀ v s2, loadWord loc s1 = .ok v s2 → cellsKept s1 s2 [] ∧ s2.pc = s1.pc ∧ s2.psw = s1.psw ∧ memoryKept s1 s2 ∧ othersKept s1 s2) ∧
    (∀ v s2, loadByte loc s1 = .ok v s2 → cellsKept s1 s2 [] ∧ s2.pc = s1.pc ∧ s2.psw = s1.psw ∧ memoryKept s1 s2 ∧ othersKept s1 s2)

/-- `Load` (30 R112): a register, or its low byte for a byte operand (10 R38); memory through the space of the current mode. `Store`
(R113): a register is written whole, a byte result by BYTE_REG_DEST (10 R37); memory through the space of the current
mode, the yellow stack check after a tagged push (20 R67). The answer says whether the store reached the PSW. -/
def Obligations.LoadAndStore : Prop :=
  ∀ (s : State) (r : Reg) (ea v : Word) (b : Byte) (pushed : Bool),
    loadWord (.reg r) s = .ok (s.reg r) s ∧ loadByte (.reg r) s = .ok ((s.reg r).extractLsb' 0 8) s ∧
    loadWord (.mem ea pushed) s = memReadWordIn s.mode ea s ∧ loadByte (.mem ea pushed) s = memReadByteIn s.mode ea s ∧
    storeWord (.reg r) v s = .ok false (s.setReg r v) ∧
    (s.cfg.byteRegDest = .signExtendAll → storeByte (.reg r) b s = .ok false (s.setReg r (b.signExtend 16))) ∧
    (s.cfg.byteRegDest = .movbOnly → ∃ x : Word, x.extractLsb' 0 8 = b ∧ x.extractLsb' 8 8 = (s.reg r).extractLsb' 8 8 ∧
      storeByte (.reg r) b s = .ok false (s.setReg r x)) ∧
    (∀ hit s1, memWriteWordIn s.mode ea v s = .ok hit s1 → storeWord (.mem ea pushed) v s =
      .ok hit (if pushed = true ∧ s.mode = .kernel ∧ ea < 0o400 then { s1 with yellowPending := true } else s1)) ∧
    (∀ hit s1, memWriteByteIn s.mode ea b s = .ok hit s1 → storeByte (.mem ea pushed) b s =
      .ok hit (if pushed = true ∧ s.mode = .kernel ∧ ea < 0o400 then { s1 with yellowPending := true } else s1)) ∧
    (∀ e s1, memWriteWordIn s.mode ea v s = .error e s1 → storeWord (.mem ea pushed) v s = .error e s1) ∧
    (∀ e s1, memWriteByteIn s.mode ea b s = .error e s1 → storeByte (.mem ea pushed) b s = .error e s1)

/-! ## Memory -/

/-- Reads (20 R54, R56, R57, R60 to R62): the checks in their order, each with the access not performed, and what answers. A word is read
low byte first; one at an odd address is a BusError before the MMU sees it. A device answers some value. The model's choices: an MMU
fault changes MMR0 at the access and MMR2 only as it leaves the instruction, where R83 writes both (log 17); a read of a device changes
nothing but the count of free values (logs 2, 8); a read of the switches lets the operator's next setting take effect (log 3). -/
def Obligations.ReadOutcomes : Prop :=
  ∀ (mode : Mode) (va : Word) (s : State),
    (va.getLsbD 0 = true → memReadWordIn mode va s = .error (.raised .busError) s) ∧
    (mmuEnabled s.mmr0 = true → s.accessReasons mode va .read ≠ 0 →
      ∃ m, (va.getLsbD 0 = false → memReadWordIn mode va s = .error (.raised .mmuFault) { s with mmr0 := m }) ∧
        memReadByteIn mode va s = .error (.raised .mmuFault) { s with mmr0 := m }) ∧
    ((mmuEnabled s.mmr0 = true → s.accessReasons mode va .read = 0) →
      let pa := s.physAddr mode va
      (pa.toNat < s.cfg.memTop →
        (va.getLsbD 0 = false → ∃ v : Word, v.extractLsb' 0 8 = s.byteAt pa.toNat ∧ v.extractLsb' 8 8 = s.byteAt (pa.toNat + 1) ∧
          memReadWordIn mode va s = .ok v s) ∧
        memReadByteIn mode va s = .ok (s.byteAt pa.toNat) s) ∧
      (¬ pa.toNat < s.cfg.memTop → ∀ r, ioRegAt pa = some r →
        let t := if r = .switches then { s with sr := s.switchMoves.headD s.sr, switchMoves := s.switchMoves.tail } else s
        (va.getLsbD 0 = false → memReadWordIn mode va s = .ok (s.ioRead r) t) ∧
        memReadByteIn mode va s =
          .ok (if va.getLsbD 0 = true then (s.ioRead r).extractLsb' 8 8 else (s.ioRead r).extractLsb' 0 8) t) ∧
      (¬ pa.toNat < s.cfg.memTop → ioRegAt pa = none → pa.toNat ∈ s.cfg.deviceAddrs →
        (va.getLsbD 0 = false → ∃ v, memReadWordIn mode va s = .ok v { s with draws := s.draws + 1 }) ∧
        ∃ v, memReadByteIn mode va s = .ok v { s with draws := s.draws + 1 }) ∧
      (¬ pa.toNat < s.cfg.memTop → ioRegAt pa = none → pa.toNat ∉ s.cfg.deviceAddrs →
        (va.getLsbD 0 = false → memReadWordIn mode va s = .error (.raised .busError) s) ∧
        memReadByteIn mode va s = .error (.raised .busError) s))

/-- Writes that stop (20 R56, R57, R74): an odd word address, an MMU fault, an address where nothing is; nothing is stored. That an MMU
fault changes MMR0 alone at this point, and MMR2 as it leaves the instruction, is the model's choice (log 17; R83 writes both). -/
def Obligations.WriteStops : Prop :=
  ∀ (mode : Mode) (va v : Word) (b : Byte) (s : State),
    (va.getLsbD 0 = true → memWriteWordIn mode va v s = .error (.raised .busError) s) ∧
    (mmuEnabled s.mmr0 = true → s.accessReasons mode va .write ≠ 0 →
      ∃ m, (va.getLsbD 0 = false → memWriteWordIn mode va v s = .error (.raised .mmuFault) { s with mmr0 := m }) ∧
        memWriteByteIn mode va b s = .error (.raised .mmuFault) { s with mmr0 := m }) ∧
    ((mmuEnabled s.mmr0 = true → s.accessReasons mode va .write = 0) →
      ¬ (s.physAddr mode va).toNat < s.cfg.memTop → ioRegAt (s.physAddr mode va) = none →
      (s.physAddr mode va).toNat ∉ s.cfg.deviceAddrs →
      (va.getLsbD 0 = false → memWriteWordIn mode va v s = .error (.raised .busError) s) ∧
      memWriteByteIn mode va b s = .error (.raised .busError) s)

/-- Writes to memory (20 R54, R61, R62, R76): the bytes written, low byte first, every other byte as before, and bit C of the page's PDR
set where the MMU is on; nothing else changes. -/
def Obligations.WriteStores : Prop :=
  ∀ (mode : Mode) (va v : Word) (b : Byte) (s : State), configWf s.cfg = true →
    (mmuEnabled s.mmr0 = true → s.accessReasons mode va .write = 0) → (s.physAddr mode va).toNat < s.cfg.memTop →
    let pa := (s.physAddr mode va).toNat
    (va.getLsbD 0 = false → ∃ t, memWriteWordIn mode va v s = .ok false t ∧ t.byteAt pa = v.extractLsb' 0 8 ∧
      t.byteAt (pa + 1) = v.extractLsb' 8 8 ∧ (∀ a, a ≠ pa → a ≠ pa + 1 → t.byteAt a = s.byteAt a) ∧ cellsKept s t [] ∧
      t.pc = s.pc ∧ t.psw = s.psw ∧ t.sr = s.sr ∧ t.switchMoves = s.switchMoves ∧ othersAfterStore mode s (.mem va false) s t) ∧
    (∃ t, memWriteByteIn mode va b s = .ok false t ∧ t.byteAt pa = b ∧ (∀ a, a ≠ pa → t.byteAt a = s.byteAt a) ∧
      cellsKept s t [] ∧ t.pc = s.pc ∧ t.psw = s.psw ∧ t.sr = s.sr ∧ t.switchMoves = s.switchMoves ∧
      othersAfterStore mode s (.mem va false) s t)

/-- A word written to memory is read back from the same address, its low byte from the same and its high byte from the next address (20 R54). -/
def Obligations.ReadAfterWrite : Prop :=
  ∀ (mode : Mode) (va v : Word) (s t : State) (hit : Bool), memWriteWordIn mode va v s = .ok hit t →
    (s.physAddr mode va).toNat < s.cfg.memTop → (mmuEnabled s.mmr0 = true → s.accessReasons mode va .read = 0) →
    memReadWordIn mode va t = .ok v t ∧ memReadByteIn mode va t = .ok (v.extractLsb' 0 8) t ∧
      t.byteAt ((s.physAddr mode va).toNat + 1) = v.extractLsb' 8 8

/-- The fixed mapping, in both modes and for every kind of access (20 R52). -/
def Obligations.FixedMapping : Prop :=
  ∀ (mode : Mode) (va : Word) (kind : Access) (s : State), mmuEnabled s.mmr0 = false →
    ∃ pa, translate mode va kind s = .ok pa s ∧ pa.toNat = if va.toNat < 0o160000 then va.toNat else va.toNat + 0o600000

/-- The mapping of the MMU (20 R70 to R75): the page, the bounds, the permissions and the address, for both values of MMU_BOUNDS; `off`,
`b` and `p` are the numbers of the rule. -/
def Obligations.MmuTranslation : Prop :=
  ∀ (mode : Mode) (va : Word) (kind : Access) (s : State), mmuEnabled s.mmr0 = true →
    let pdr := s.pdr mode (va.extractLsb' 13 3)
    let off := va.toNat % 8192
    let b := 64 * (pdr.extractLsb' 8 7).toNat
    let p := 64 * ((s.par mode (va.extractLsb' 13 3)).extractLsb' 0 12).toNat
    let upper := pdr.getLsbD 3
    let valid := match s.cfg.mmuBounds with
      | .sourceLiteral => if upper = true then b ≤ off else off ≤ b
      | .blockGranular => if upper = true then b / 64 ≤ off / 64 else off / 64 ≤ b / 64
    let allowed := pdr.getLsbD 1 = true ∧ valid ∧ (kind = .write → pdr.getLsbD 2 = true)
    (allowed → ∃ pa, translate mode va kind s = .ok pa s ∧
      pa.toNat = (if s.cfg.mmuBounds = .sourceLiteral ∧ upper = true then p + (off - b) else p + off) % 2 ^ 18) ∧
    (¬ allowed → ∃ s1, translate mode va kind s = .error (.raised .mmuFault) s1)

/-- What an MMU fault records in MMR0 (20 R78, R83): the reasons are added, the mode and the page replaced, the enable bit kept; no other
register and no byte of memory changes. That MMR2, which R83 writes as well, changes only as the fault leaves the instruction is the
model's choice (log 17). -/
def Obligations.MmuFaultRecords : Prop :=
  ∀ (mode : Mode) (va : Word) (kind : Access) (s s1 : State) (e : Abort), translate mode va kind s = .error e s1 →
    e = .raised .mmuFault ∧ s1 = { s with mmr0 := s1.mmr0 } ∧
      s1.mmr0.extractLsb' 1 3 = va.extractLsb' 13 3 ∧
      s1.mmr0.extractLsb' 5 2 = (match mode with | .kernel => 0b00#2 | .user => 0b11#2) ∧
      s1.mmr0.getLsbD 0 = true ∧
      (s1.mmr0.getLsbD 10 = (s.mmr0.getLsbD 10 || !(s.pdr mode (va.extractLsb' 13 3)).getLsbD 1)) ∧
      (s1.mmr0.getLsbD 12 = (s.mmr0.getLsbD 12 || (kind == .write && !(s.pdr mode (va.extractLsb' 13 3)).getLsbD 2))) ∧
      (s1.mmr0.getLsbD 11 = (s.mmr0.getLsbD 11 ||
        !offsetValid s.cfg.mmuBounds (s.pdr mode (va.extractLsb' 13 3)) (va.extractLsb' 0 13)))

/-- The registers of the I/O page stand at their addresses (20 R64, R77), either byte of each. -/
def Obligations.IoAddresses : Prop :=
  (∀ (page : BitVec 3) (odd : Fin 2),
    ioRegAt (BitVec.ofNat 18 (0o772300 + 2 * page.toNat + odd)) = some (.pdr .kernel page) ∧
    ioRegAt (BitVec.ofNat 18 (0o772340 + 2 * page.toNat + odd)) = some (.par .kernel page) ∧
    ioRegAt (BitVec.ofNat 18 (0o777600 + 2 * page.toNat + odd)) = some (.pdr .user page) ∧
    ioRegAt (BitVec.ofNat 18 (0o777640 + 2 * page.toNat + odd)) = some (.par .user page)) ∧
  (∀ odd : Fin 2, ioRegAt (BitVec.ofNat 18 (0o777570 + odd)) = some .switches ∧
    ioRegAt (BitVec.ofNat 18 (0o777572 + odd)) = some .mmr0 ∧ ioRegAt (BitVec.ofNat 18 (0o777576 + odd)) = some .mmr2 ∧
    ioRegAt (BitVec.ofNat 18 (0o777776 + odd)) = some .psw) ∧
  ioRegAt 0o777574 = none ∧ ioRegAt 0o777516 = none ∧ ioRegAt 0o772200 = none ∧ ioRegAt 0o760000 = none

/-- A word written to a register of the I/O page and what is read there afterwards (20 R65, R66, R71, R72, R78, R79): the PSW without bits
11:8, a PAR's bits 11:0, a PDR's S, U, W and R with C cleared, MMR0's bits; a write to 0777570 sets DR and leaves SR, one to MMR2 does
nothing, and one that would put a reserved mode into the PSW is refused. The last two clauses, with the MMU off and on (20 R61, R62): a
word stored at the register's address is that write, a byte stored there is the write of the old word (DR's at 0777570) with that byte
replaced, and the answer is true for the PSW alone (R65). A write to an address that DEVICES owns completes and changes nothing (the
model's choice, log 8); bit C of the page follows the MMU at translation, also where MMR0 is written (the model's choice, log 12). -/
def Obligations.IoRegisterWrites : Prop :=
  ∀ (s : State) (v : Word),
    (∀ mode page, ∃ t, ioWrite (.par mode page) v s = .ok () t ∧ t = s.setPar mode page (v &&& 0o007777) ∧
      t.ioRead (.par mode page) = v &&& 0o007777) ∧
    (∀ mode page, ∃ t, ioWrite (.pdr mode page) v s = .ok () t ∧ t = s.setPdr mode page (v &&& 0o077416) ∧
      t.ioRead (.pdr mode page) = v &&& 0o077416 ∧ (t.pdr mode page).getLsbD 6 = false) ∧
    (∃ t, ioWrite .mmr0 v s = .ok () t ∧ t = { s with mmr0 := v &&& 0o016157 } ∧ t.ioRead .mmr0 = v &&& 0o016157) ∧
    (ioWrite .mmr2 v s = .ok () s) ∧
    (∃ t, ioWrite .switches v s = .ok () t ∧ t = { s with dr := v } ∧ t.ioRead .switches = s.sr) ∧
    (pswWritable v = true → ∃ t, ioWrite .psw v s = .ok () t ∧ t = { s with psw := v &&& 0o170377 } ∧
      t.ioRead .psw = v &&& 0o170377) ∧
    (pswWritable v = false → ioWrite .psw v s = .error (.refusal .reservedMode) s) ∧
    (pswWritable v = true ↔ (v.extractLsb' 14 2 = 0b00 ∨ v.extractLsb' 14 2 = 0b11) ∧
      (v.extractLsb' 12 2 = 0b00 ∨ v.extractLsb' 12 2 = 0b11)) ∧
    (∀ (mode : Mode) (va : Word) (b : Byte) (r : IoReg), (mmuEnabled s.mmr0 = true → s.accessReasons mode va .write = 0) →
      ¬ (s.physAddr mode va).toNat < s.cfg.memTop → ioRegAt (s.physAddr mode va) = some r →
      (va.getLsbD 0 = false → memWriteWordIn mode va v s = afterIoWrite mode va r s (ioWrite r v s)) ∧
      memWriteByteIn mode va b s = afterIoWrite mode va r s
        (ioWrite r (byteReplaced (if r = .switches then s.dr else s.ioRead r) va b) s)) ∧
    (∀ (mode : Mode) (va : Word) (b : Byte), (mmuEnabled s.mmr0 = true → s.accessReasons mode va .write = 0) →
      ¬ (s.physAddr mode va).toNat < s.cfg.memTop → ioRegAt (s.physAddr mode va) = none →
      (s.physAddr mode va).toNat ∈ s.cfg.deviceAddrs →
      let t := if mmuEnabled s.mmr0 then s.setPdr mode (pageOf va) (pdrSetC (s.pdr mode (pageOf va))) else s
      (va.getLsbD 0 = false → memWriteWordIn mode va v s = .ok false t) ∧ memWriteByteIn mode va b s = .ok false t)

/-! ## The stack and the trap sequence -/

/-- `push` and `pop` (10 R23, 20 R67): SP is decremented before the write and incremented after the read; a push below 0400 in kernel mode
makes the yellow stack trap due. -/
def Obligations.PushAndPop : Prop :=
  ∀ (s : State) (v : Word),
    (∀ hit t, memWriteWordIn s.mode (s.reg .sp - 2) v (s.setReg .sp (s.reg .sp - 2)) = .ok hit t →
      push v s = .ok () (if s.mode = .kernel ∧ s.reg .sp - 2 < 0o400 then { t with yellowPending := true } else t)) ∧
    (∀ e t, memWriteWordIn s.mode (s.reg .sp - 2) v (s.setReg .sp (s.reg .sp - 2)) = .error e t → push v s = .error e t) ∧
    (∀ x t, memReadWordIn s.mode (s.reg .sp) s = .ok x t → pop s = .ok x (t.setReg .sp (s.reg .sp + 2))) ∧
    (∀ e t, memReadWordIn s.mode (s.reg .sp) s = .error e t → pop s = .error e t)

/-- The trap sequence, with the MMU off and on, where the vector reads from memory and the two pushes land in memory, in two different
words of it, through the kernel space (60 R241, 20 R80): PC and PS from the vector, CM kernel, PM the old mode, the old PC and PSW on the
kernel stack; bit C of the pages pushed through where the MMU is on; all else as it was. -/
def Obligations.TrapSequenceSaves : Prop :=
  ∀ (n : Word) (s : State), n.toNat % 4 = 0 → s.ksp.toNat % 2 = 0 →
    (∀ va ∈ [n, n + 2], s.kernelAccess va .read) → (∀ va ∈ [s.ksp - 2, s.ksp - 4], s.kernelAccess va .write) →
    s.physAddr .kernel (s.ksp - 2) ≠ s.physAddr .kernel (s.ksp - 4) →
    let psAt := (s.physAddr .kernel (s.ksp - 2)).toNat
    let pcAt := (s.physAddr .kernel (s.ksp - 4)).toNat
    ∃ t, trapAt n s = .next t ∧ t.pc = s.wordAt (s.physAddr .kernel n).toNat ∧ t.mode = .kernel ∧ pswPM t.psw = pswCM s.psw ∧
      t.psw.extractLsb' 0 8 = s.byteAt (s.physAddr .kernel (n + 2)).toNat ∧ t.psw.extractLsb' 8 4 = 0 ∧ t.ksp = s.ksp - 4 ∧
      t.wordAt pcAt = s.pc ∧ t.wordAt psAt = s.psw &&& 0o170377 ∧
      (∀ a, a ∉ [psAt, psAt + 1, pcAt, pcAt + 1] → t.byteAt a = s.byteAt a) ∧ cellsKept s t [some .ksp] ∧
      pushedThrough [s.ksp - 2, s.ksp - 4] s t ∧ t.yellowPending = false ∧ t.traceInhibit = false ∧ t.run = s.run ∧
      t.pending = s.pending ∧ t.dr = s.dr ∧ t.sr = s.sr ∧ t.switchMoves = s.switchMoves ∧ t.mmr0 = s.mmr0 ∧ t.mmr2 = s.mmr2

/-- The red stack trap, with the MMU off and on: where the first push of the trap sequence fails (KSP is odd, or nothing answers below it,
or the MMU turns the write down, which MMR0 records) and the kernel addresses 0 to 7 lie in memory, the PC and the PSW go to 0 and 2,
KSP becomes 0, and the handler at vector 004 runs (60 R248). -/
def Obligations.RedStackTrapSaves : Prop :=
  ∀ (n : Word) (s : State), n.toNat % 4 = 0 → (∀ va ∈ [n, n + 2], s.kernelAccess va .read) →
    (∀ va ∈ [0, 2], s.kernelAccess va .write) → (∀ va ∈ [4, 6], s.kernelAccess va .read) →
    (s.ksp.toNat % 2 = 1 ∨ (mmuEnabled s.mmr0 = true ∧ s.accessReasons .kernel (s.ksp - 2) .write ≠ 0) ∨
      (¬ (s.physAddr .kernel (s.ksp - 2)).toNat < s.cfg.memTop ∧ ioRegAt (s.physAddr .kernel (s.ksp - 2)) = none ∧
        (s.physAddr .kernel (s.ksp - 2)).toNat ∉ s.cfg.deviceAddrs)) →
    let base := (s.physAddr .kernel 0).toNat
    ∃ t, trapAt n s = .next t ∧ t.pc = s.wordAt (base + 4) ∧ t.mode = .kernel ∧ pswPM t.psw = pswCM s.psw ∧
      t.psw.extractLsb' 0 8 = s.byteAt (base + 6) ∧ t.psw.extractLsb' 8 4 = 0 ∧ t.ksp = 0 ∧ t.wordAt base = s.pc ∧
      t.wordAt (base + 2) = s.psw &&& 0o170377 ∧
      (∀ a, a < base ∨ base + 4 ≤ a → t.byteAt a = s.byteAt a) ∧ cellsKept s t [some .ksp] ∧ pushedThrough [0] s t ∧
      t.yellowPending = false ∧ t.traceInhibit = false ∧ t.run = s.run ∧ t.pending = s.pending ∧ t.dr = s.dr ∧ t.sr = s.sr ∧
      t.switchMoves = s.switchMoves ∧ (mmuEnabled s.mmr0 = false → t.mmr0 = s.mmr0) ∧ t.mmr2 = s.mmr2

/-- An exception leaves the instruction through its vector (60 R240, R243), and in nothing else: the trap sequence runs on the state as it
stands, an MMU fault having recorded the address of the instruction in MMR2 (20 R83). Then how the trap sequence ends, at any vector: it
runs through (R241); its vector cannot be read, and there is no successor (93 U9); a push fails, and the red stack trap follows from
the state as it then stands (R248); an access of that one fails too, and there is no successor (93 U10); a push would put a reserved mode
into the PSW, and is refused (10 R26). -/
def Obligations.ExceptionsTrap : Prop :=
  (∀ (body : Action Unit) (s u : State) (e : Exn), body s = .error (.raised e) u →
    let n : Word := match e with
      | .busError => 0o004 | .illegalInstruction => 0o010 | .breakpoint => 0o014 | .ioTrap => 0o020 | .emulatorTrap => 0o030
      | .systemTrap => 0o034 | .mmuFault => 0o250
    let u' := if e = .mmuFault then { u with mmr2 := u.ia } else u
    runInstr body s = markTrap (trapAt n u') ∧
      ∀ t, TrapRuns n u' t → runInstr body s = .next { t with trapTaken := true }) ∧
  ∀ (n : Word) (s : State),
    (∀ t, TrapRuns n s t → trapAt n s = .next t) ∧
    (∀ e s1, vectorFetch n s = .error (.raised e) s1 → trapAt n s = .fault .vectorFetchFailed) ∧
    (∀ newPc newPs s1 s2 x, vectorFetch n s = .ok (newPc, newPs) s1 →
      trapPushes (s.psw &&& 0o170377) s.pc { s1 with psw := pswOfTrap s.psw newPs } = .error x s2 →
      (∀ r, x = .refusal r → trapAt n s = .refused r) ∧
      (∀ e, x = .raised e →
        (∀ pc4 ps4 s3, redStackEntry (s.psw &&& 0o170377) s.pc s2 = .ok (pc4, ps4) s3 →
          trapAt n s = .next { s3 with psw := pswOfTrap s.psw ps4, pc := pc4, yellowPending := false, traceInhibit := false }) ∧
        (∀ e' s3, redStackEntry (s.psw &&& 0o170377) s.pc s2 = .error (.raised e') s3 → trapAt n s = .fault .emergencyStackFailed)))

/-! ## Special instructions -/

/-- The trap instructions trap at their vectors in both modes, whatever their number (60 R245, 40 R144, R145, R148, R149): they end in the
trap sequence there, however it ends. -/
def Obligations.TrapInstructions : Prop :=
  ∀ (s : State) (nn : BitVec 8), TrapsAt .bpt 0o014 s ∧ TrapsAt .iot 0o020 s ∧ TrapsAt (.emt nn) 0o030 s ∧ TrapsAt (.sys nn) 0o034 s

/-- Every illegal code, and `jmp` and `jsr` with a register destination, trap at 010 without evaluating an operand (30 R122 to R124). -/
def Obligations.IllegalCodesTrap : Prop :=
  ∀ (s : State) (i : Instr), (match i with
    | .illegalMfpt | .illegal000010 _ | .illegal000020 _ | .illegal000040 _ | .jmpMode0 _ | .illegal000210 _ | .illegal000220 _
    | .illegalSpl _ | .jsrMode0 _ _ | .illegalCsm _ | .illegal007100 _ | .illegalTstset _ | .illegalWrtlck _ | .illegal007400 _
    | .illegalFis _ | .illegalCis _ | .illegalMtps _ | .illegalMfpd _ | .illegalMtpd _ | .illegalMfps _ | .illegal107000 _
    | .illegalFp11 _ => True
    | _ => False) → TrapsAt i 0o010 s

/-- `halt` stops the processor in kernel mode and traps at 004 in user mode; `wait` waits in both (40 R141, R142). -/
def Obligations.HaltAndWait : Prop :=
  ∀ s : State, (s.mode = .kernel → exec .halt s = .next { s with run := .halted }) ∧ (s.mode = .user → TrapsAt .halt 0o004 s) ∧
    exec .wait s = .next { s with run := .waiting }

/-- `reset` (40 R146): nothing in user mode; with the default RESET_EFFECT nothing of this state; with another one, in kernel mode, what the
platform's parameter names and nothing else (its form is the model's choice, log 5). It completes wherever the parameter does not write
the PSW, and where it writes the PSW with a legal mode; a reserved mode there is refused (10 R26). -/
def Obligations.ResetInstruction : Prop :=
  ∀ s : State, (s.mode = .user → exec .reset s = .next s) ∧
    (s.cfg.resetEffect = .none → exec .reset s = .next s) ∧
    (s.mode = .kernel → (∀ a ∈ s.cfg.resetEffect.registers, a.reg ≠ .psw) → ∃ t, exec .reset s = .next t ∧ resetLeaves s t) ∧
    (s.mode = .kernel → ∀ t, exec .reset s = .next t → resetLeaves s t) ∧
    (s.mode = .kernel → ∀ keep value, s.cfg.resetEffect.registers = [⟨.psw, .load keep value⟩] →
      if pswWritable (((s.psw &&& 0o170377) &&& keep) ||| value) = true then ∃ t, exec .reset s = .next t
      else exec .reset s = .refused .reservedMode)

/-- `rti` and `rtt` (40 R143, R147): PC, then PSW, popped from the current stack; in kernel mode the whole PSW is loaded (and a reserved
mode refused, 10 R26), in user mode T and the condition codes only; `rtt` also holds off the trace trap once. -/
def Obligations.ReturnsFromTrap : Prop :=
  ∀ (s s1 s2 : State) (newPc popped : Word), pop s = .ok newPc s1 → pop { s1 with pc := newPc } = .ok popped s2 →
    (s.mode = .kernel → pswWritable popped = true →
      exec .rti s = .next { s2 with psw := popped &&& 0o170377 } ∧
      exec .rtt s = .next { s2 with psw := popped &&& 0o170377, traceInhibit := true }) ∧
    (s.mode = .kernel → pswWritable popped = false →
      exec .rti s = .refused .reservedMode ∧ exec .rtt s = .refused .reservedMode) ∧
    (s.mode = .user →
      exec .rti s = .next { s2 with psw := (s.psw &&& 0o177740) ||| (popped &&& 0o37) } ∧
      exec .rtt s = .next { s2 with psw := (s.psw &&& 0o177740) ||| (popped &&& 0o37), traceInhibit := true })

/-- `cl?` and `se?`, encoded 000240 + m and 000260 + m, clear and set the selected codes and change nothing else (41 R151, R152, 30
R118). -/
def Obligations.ConditionCodeOperations : Prop :=
  ∀ (s : State) (m : BitVec 4),
    decodeWord (0o000240 + m.setWidth 16) = some (.clcc m) ∧ decodeWord (0o000260 + m.setWidth 16) = some (.secc m) ∧
    exec (.clcc m) s = .next { s with psw := s.psw &&& ~~~(m.setWidth 16) } ∧
    exec (.secc m) s = .next { s with psw := s.psw ||| m.setWidth 16 }

/-! ## Single-operand instructions -/

/-- `swab com inc dec neg adc sbc ror rol asr asl` on words: result and condition codes (41 R153 to R176). -/
def Obligations.WordUpdates : Prop :=
  ∀ dd : Operand,
    UpdatesWord (.swab dd) dd (fun _ d => d.rotateLeft 8)
      (fun _ d => { n := d.getLsbD 15, z := d.extractLsb' 8 8 == 0, v := false, c := false }) ∧
    UpdatesWord (.com dd) dd (fun _ d => ~~~d) (fun _ d => { n := !d.getLsbD 15, z := d == 0o177777, v := false, c := true }) ∧
    UpdatesWord (.inc dd) dd (fun _ d => d + 1)
      (fun f d => { n := (d + 1).getLsbD 15, z := d == 0o177777, v := d == 0o077777, c := f.c }) ∧
    UpdatesWord (.dec dd) dd (fun _ d => d - 1)
      (fun f d => { n := (d - 1).getLsbD 15, z := d == 1, v := d == 0o100000, c := f.c }) ∧
    UpdatesWord (.neg dd) dd (fun _ d => -d)
      (fun _ d => { n := (-d).getLsbD 15, z := d == 0, v := d == 0o100000, c := d != 0 }) ∧
    UpdatesWord (.adc dd) dd (fun f d => if f.c then d + 1 else d)
      (fun f d =>
      { n := (if f.c then d + 1 else d).getLsbD 15, z := (if f.c then d + 1 else d) == 0,
        v := f.c && d == 0o077777, c := f.c && d == 0o177777 }) ∧
    UpdatesWord (.sbc dd) dd (fun f d => if f.c then d - 1 else d)
      (fun f d =>
      { n := (if f.c then d - 1 else d).getLsbD 15, z := (if f.c then d - 1 else d) == 0,
        v := f.c && d == 0o100000, c := f.c && d == 0 }) ∧
    UpdatesWord (.ror dd) dd (fun f d => d >>> 1 ||| (if f.c then 0o100000 else 0))
      (fun f d => { n := f.c, z := !f.c && d >>> 1 == 0, v := f.c != d.getLsbD 0, c := d.getLsbD 0 }) ∧
    UpdatesWord (.rol dd) dd (fun f d => d <<< 1 ||| (if f.c then 1 else 0))
      (fun f d => { n := d.getLsbD 14, z := !f.c && d <<< 1 == 0, v := d.getLsbD 14 != d.getLsbD 15, c := d.getLsbD 15 }) ∧
    UpdatesWord (.asr dd) dd (fun _ d => BitVec.ofInt 16 (d.toInt.fdiv 2))
      (fun _ d => { n := d.getLsbD 15, z := d.toInt.fdiv 2 == 0, v := d.getLsbD 15 != d.getLsbD 0, c := d.getLsbD 0 }) ∧
    UpdatesWord (.asl dd) dd (fun _ d => d + d)
      (fun _ d => { n := d.getLsbD 14, z := d + d == 0, v := d.getLsbD 14 != d.getLsbD 15, c := d.getLsbD 15 })

/-- `comb incb decb negb adcb sbcb rorb rolb asrb aslb`: result and condition codes on bytes (41 R157 to R177). -/
def Obligations.ByteUpdates : Prop :=
  ∀ dd : Operand,
    UpdatesByte (.comb dd) dd (fun _ d => ~~~d) (fun _ d => { n := !d.getLsbD 7, z := d == 0o377, v := false, c := true }) ∧
    UpdatesByte (.incb dd) dd (fun _ d => d + 1)
      (fun f d => { n := (d + 1).getLsbD 7, z := d == 0o377, v := d == 0o177, c := f.c }) ∧
    UpdatesByte (.decb dd) dd (fun _ d => d - 1)
      (fun f d => { n := (d - 1).getLsbD 7, z := d == 1, v := d == 0o200, c := f.c }) ∧
    UpdatesByte (.negb dd) dd (fun _ d => -d)
      (fun _ d => { n := (-d).getLsbD 7, z := d == 0, v := d == 0o200, c := d != 0 }) ∧
    UpdatesByte (.adcb dd) dd (fun f d => if f.c then d + 1 else d)
      (fun f d =>
      { n := (if f.c then d + 1 else d).getLsbD 7, z := (if f.c then d + 1 else d) == 0,
        v := f.c && d == 0o177, c := f.c && d == 0o377 }) ∧
    UpdatesByte (.sbcb dd) dd (fun f d => if f.c then d - 1 else d)
      (fun f d =>
      { n := (if f.c then d - 1 else d).getLsbD 7, z := (if f.c then d - 1 else d) == 0,
        v := f.c && d == 0o200, c := f.c && d == 0 }) ∧
    UpdatesByte (.rorb dd) dd (fun f d => d >>> 1 ||| (if f.c then 0o200 else 0))
      (fun f d => { n := f.c, z := !f.c && d >>> 1 == 0, v := f.c != d.getLsbD 0, c := d.getLsbD 0 }) ∧
    UpdatesByte (.rolb dd) dd (fun f d => d <<< 1 ||| (if f.c then 1 else 0))
      (fun f d => { n := d.getLsbD 6, z := !f.c && d <<< 1 == 0, v := d.getLsbD 6 != d.getLsbD 7, c := d.getLsbD 7 }) ∧
    UpdatesByte (.asrb dd) dd (fun _ d => BitVec.ofInt 8 (d.toInt.fdiv 2))
      (fun _ d => { n := d.getLsbD 7, z := d.toInt.fdiv 2 == 0, v := d.getLsbD 7 != d.getLsbD 0, c := d.getLsbD 0 }) ∧
    UpdatesByte (.aslb dd) dd (fun _ d => d + d)
      (fun _ d => { n := d.getLsbD 6, z := d + d == 0, v := d.getLsbD 6 != d.getLsbD 7, c := d.getLsbD 7 })

/-- `clr`, `clrb` and `sxt` write their destination without reading it (41 R154, R155, R180). -/
def Obligations.ClearAndSignExtend : Prop :=
  ∀ (dd : Operand) (s s1 s2 : State) (loc : Loc) (hit : Bool),
    (operand .word dd s = .ok loc s1 → storeWord loc 0 s1 = .ok hit s2 →
      exec (.clr dd) s = .next (afterCodes hit s2 ⟨false, true, false, false⟩)) ∧
    (operand .byte dd s = .ok loc s1 → storeByte loc 0 s1 = .ok hit s2 →
      exec (.clrb dd) s = .next (afterCodes hit s2 ⟨false, true, false, false⟩)) ∧
    (operand .word dd s = .ok loc s1 → storeWord loc (if s1.flags.n then 0o177777 else 0) s1 = .ok hit s2 →
      exec (.sxt dd) s = .next (afterCodes hit s2 { n := s1.flags.n, z := !s1.flags.n, v := false, c := s1.flags.c }))

/-- `tst` and `tstb` only read their operand (41 R168, R169). -/
def Obligations.Tests : Prop :=
  ∀ (dd : Operand) (s s1 s2 : State) (loc : Loc),
    (∀ d : Word, operand .word dd s = .ok loc s1 → loadWord loc s1 = .ok d s2 →
      exec (.tst dd) s = .next (s2.setFlags { n := d.getLsbD 15, z := d == 0, v := false, c := false })) ∧
    (∀ d : Byte, operand .byte dd s = .ok loc s1 → loadByte loc s1 = .ok d s2 →
      exec (.tstb dd) s = .next (s2.setFlags { n := d.getLsbD 7, z := d == 0, v := false, c := false }))

/-- `mfpi` (41 R178, 20 R81): the operand, SP being the previous mode's and memory the previous mode's space, is pushed on the current
stack. That N, Z and V are assigned also after a push that landed on the PSW is the model's choice (log 13). -/
def Obligations.MoveFromPrevious : Prop :=
  ∀ (ss : Operand) (s s1 s2 s3 : State) (loc : Loc) (v : Word), operand .word ss s = .ok loc s1 →
    (match loc with
      | .reg .sp => s2 = s1 ∧ v = if s1.prevMode = .kernel then s1.ksp else s1.usp
      | .reg r => s2 = s1 ∧ v = s1.reg r
      | .mem ea _ => memReadWordIn s1.prevMode ea s1 = .ok v s2) →
    push v s2 = .ok () s3 →
    exec (.mfpi ss) s = .next (s3.setFlags { n := v.getLsbD 15, z := v == 0, v := false, c := s3.flags.c })

/-- `mtpi` (41 R179, 20 R81): a word is popped from the current stack, then stored in the previous mode's SP, in a register, or in the
previous mode's space, a push tagged by mode 4 on SP being checked (20 R67; logs 13, 14). -/
def Obligations.MoveToPrevious : Prop :=
  ∀ (dd : Operand) (s s1 s2 s3 : State) (loc : Loc) (v : Word) (hit : Bool), pop s = .ok v s1 → operand .word dd s1 = .ok loc s2 →
    (match loc with
      | .reg .sp => hit = false ∧ s3 = if s2.prevMode = .kernel then { s2 with ksp := v } else { s2 with usp := v }
      | .reg r => hit = false ∧ s3 = s2.setReg r v
      | .mem ea pushed => storeWordIn s2.prevMode (.mem ea pushed) v s2 = .ok hit s3) →
    exec (.mtpi dd) s = .next (afterCodes hit s3 { n := v.getLsbD 15, z := v == 0, v := false, c := s3.flags.c })

/-! ## Two-operand instructions -/

/-- `mov` and `movb`: the source is read, the destination written without being read; a register takes the byte sign-extended whatever
BYTE_REG_DEST says (42 R191, R192, 10 R37). -/
def Obligations.Moves : Prop :=
  ∀ (ss dd : Operand) (s s1 s2 s3 s4 : State) (locS locD : Loc) (hit : Bool),
    (∀ x : Word, operand .word ss s = .ok locS s1 → loadWord locS s1 = .ok x s2 → operand .word dd s2 = .ok locD s3 →
      storeWord locD x s3 = .ok hit s4 →
      exec (.mov ss dd) s = .next (afterCodes hit s4 { n := x.getLsbD 15, z := x == 0, v := false, c := s3.flags.c })) ∧
    (∀ x : Byte, operand .byte ss s = .ok locS s1 → loadByte locS s1 = .ok x s2 → operand .byte dd s2 = .ok locD s3 →
      (match locD with
        | .reg r => hit = false ∧ s4 = s3.setReg r (x.signExtend 16)
        | .mem ea pushed => storeByte (.mem ea pushed) x s3 = .ok hit s4) →
      exec (.movb ss dd) s = .next (afterCodes hit s4 { n := x.getLsbD 7, z := x == 0, v := false, c := s3.flags.c }))

/-- `cmp` and `cmpb` (42 R193, R194): the codes of source minus destination, C the borrow, V the signed overflow; `bit` and `bitb`
(R195, R196): those of the conjunction. -/
def Obligations.Comparisons : Prop :=
  ∀ ss dd : Operand,
    ComparesWord (.cmp ss dd) ss dd (fun _ x d =>
      { n := (x - d).getLsbD 15, z := x == d,
        v := decide (x.toInt - d.toInt < -32768 ∨ 32767 < x.toInt - d.toInt), c := decide (x.toNat < d.toNat) }) ∧
    ComparesByte (.cmpb ss dd) ss dd (fun _ x d =>
      { n := (x - d).getLsbD 7, z := x == d,
        v := decide (x.toInt - d.toInt < -128 ∨ 127 < x.toInt - d.toInt), c := decide (x.toNat < d.toNat) }) ∧
    ComparesWord (.bit ss dd) ss dd (fun f x d => { n := (x &&& d).getLsbD 15, z := x &&& d == 0, v := false, c := f.c }) ∧
    ComparesByte (.bitb ss dd) ss dd (fun f x d => { n := (x &&& d).getLsbD 7, z := x &&& d == 0, v := false, c := f.c })

/-- `bic`, `bicb`, `bis`, `bisb` (42 R197 to R200); `add` and `sub` (R201, R202): V is the signed overflow, C the carry of the sum and the
borrow of destination minus source. -/
def Obligations.TwoOperandUpdates : Prop :=
  ∀ ss dd : Operand,
    CombinesWord (.bic ss dd) ss dd (fun x d => d &&& ~~~x)
      (fun f x d => { n := (d &&& ~~~x).getLsbD 15, z := d &&& ~~~x == 0, v := false, c := f.c }) ∧
    CombinesByte (.bicb ss dd) ss dd (fun x d => d &&& ~~~x)
      (fun f x d => { n := (d &&& ~~~x).getLsbD 7, z := d &&& ~~~x == 0, v := false, c := f.c }) ∧
    CombinesWord (.bis ss dd) ss dd (fun x d => d ||| x)
      (fun f x d => { n := (d ||| x).getLsbD 15, z := d ||| x == 0, v := false, c := f.c }) ∧
    CombinesByte (.bisb ss dd) ss dd (fun x d => d ||| x)
      (fun f x d => { n := (d ||| x).getLsbD 7, z := d ||| x == 0, v := false, c := f.c }) ∧
    CombinesWord (.add ss dd) ss dd (fun x d => d + x) (fun _ x d =>
      { n := (d + x).getLsbD 15, z := d + x == 0,
        v := decide (d.toInt + x.toInt < -32768 ∨ 32767 < d.toInt + x.toInt), c := decide (65536 ≤ d.toNat + x.toNat) }) ∧
    CombinesWord (.sub ss dd) ss dd (fun x d => d - x) (fun _ x d =>
      { n := (d - x).getLsbD 15, z := d == x,
        v := decide (d.toInt - x.toInt < -32768 ∨ 32767 < d.toInt - x.toInt), c := decide (d.toNat < x.toNat) })

/-- `xor` (42 R207): the register is read after the destination has been evaluated and read. -/
def Obligations.ExclusiveOr : Prop :=
  ∀ (r : Reg) (dd : Operand) (s s1 s2 s3 : State) (loc : Loc) (d : Word) (hit : Bool), operand .word dd s = .ok loc s1 →
    loadWord loc s1 = .ok d s2 → storeWord loc (d ^^^ s2.reg r) s2 = .ok hit s3 →
    exec (.xor r dd) s = .next (afterCodes hit s3
      { n := (d ^^^ s2.reg r).getLsbD 15, z := d == s2.reg r, v := false, c := s2.flags.c })

/-! ## EIS -/

/-- `mul` (42 R203): the exact product `p`; its high and low words go to an even register and the next, its low word alone to an odd one;
N and Z of the whole product, C where it does not fit a word. -/
def Obligations.Multiply : Prop :=
  ∀ (r : Reg) (ss : Operand) (s s1 s2 : State) (loc : Loc) (x : Word), operand .word ss s = .ok loc s1 → loadWord loc s1 = .ok x s2 →
    let p : Int := x.toInt * (s2.reg r).toInt
    let high : Word := BitVec.ofInt 16 (p.fdiv 65536)
    let low : Word := BitVec.ofInt 16 p
    let codes : Flags := { n := decide (p < 0), z := decide (p = 0), v := false, c := decide (p < -32768 ∨ 32767 < p) }
    (regOdd r = false → exec (.mul r ss) s = .next (((s2.setReg r high).setReg (regPair r) low).setFlags codes)) ∧
    (regOdd r = true → exec (.mul r ss) s = .next ((s2.setReg r low).setFlags codes))

/-- `div` by a divisor whose quotient fits a word (42 R204): the quotient `q`, truncated toward zero, to the even register, the remainder
`m`, of the dividend's sign, to the next; N and Z of the quotient. The second clause: with an odd register it is refused (93 U6). -/
def Obligations.Divide : Prop :=
  ∀ (r : Reg) (ss : Operand) (s s1 s2 : State) (loc : Loc) (x : Word), operand .word ss s = .ok loc s1 → loadWord loc s1 = .ok x s2 →
    (∀ q m : Int, regOdd r = false → x ≠ 0 →
      (s2.reg r).toInt * 65536 + (s2.reg (regPair r)).toNat = q * x.toInt + m → m.natAbs < x.toInt.natAbs →
      (m = 0 ∨ (m < 0 ↔ (s2.reg r).toInt < 0)) → -32768 ≤ q → q ≤ 32767 →
      exec (.div r ss) s = .next (((s2.setReg r (BitVec.ofInt 16 q)).setReg (regPair r) (BitVec.ofInt 16 m)).setFlags
        { n := decide (q < 0), z := decide (q = 0), v := false, c := false })) ∧
    (regOdd r = true → exec (.div r ss) s = .refused .divOddRegister)

/-- `div` where the spec leaves values open (42 R204, 92 D42; log 2): a zero divisor sets C and V and keeps the registers; a quotient that
does not fit sets V, clears C and leaves any values in the pair; N and Z are open in both. -/
def Obligations.DivideOpenCases : Prop :=
  ∀ (r : Reg) (ss : Operand) (s s1 s2 : State) (loc : Loc) (x : Word), operand .word ss s = .ok loc s1 → loadWord loc s1 = .ok x s2 →
    regOdd r = false →
    (x = 0 → ∃ n z k, exec (.div r ss) s = .next (({ s2 with draws := k } : State).setFlags ⟨n, z, true, true⟩)) ∧
    (x ≠ 0 → (∀ q m : Int, (s2.reg r).toInt * 65536 + (s2.reg (regPair r)).toNat = q * x.toInt + m → m.natAbs < x.toInt.natAbs →
        (m = 0 ∨ (m < 0 ↔ (s2.reg r).toInt < 0)) → q < -32768 ∨ 32767 < q) →
      ∃ n z k a b, exec (.div r ss) s =
        .next (((({ s2 with draws := k } : State).setReg r a).setReg (regPair r) b).setFlags ⟨n, z, true, false⟩))

/-- `ash`, and `ashc` with an odd register (42 R205, R206): the register shifted by the signed low six bits of the source, left when
positive, right toward the smaller integer when negative; C the last bit shifted out, V where the exact value does not fit. A count of zero
keeps the register; its C is the parameter's (92 D43, log 4). -/
def Obligations.ArithmeticShift : Prop :=
  ∀ (r : Reg) (ss : Operand) (i : Instr) (s s1 s2 : State) (loc : Loc) (x : Word),
    (i = .ash r ss ∨ (i = .ashc r ss ∧ regOdd r = true)) → operand .word ss s = .ok loc s1 → loadWord loc s1 = .ok x s2 →
    let k : Int := (x.extractLsb' 0 6).toInt
    let d : Word := s2.reg r
    (0 < k → let f : Int := d.toInt * 2 ^ k.toNat
      exec i s = .next ((s2.setReg r (BitVec.ofInt 16 f)).setFlags
        { n := (BitVec.ofInt 16 f).getLsbD 15, z := BitVec.ofInt 16 f == 0, v := decide (f < -32768 ∨ 32767 < f),
          c := decide (k ≤ 16) && d.getLsbD (16 - k.toNat) })) ∧
    (k < 0 → let q : Int := d.toInt.fdiv (2 ^ (-k).toNat)
      exec i s = .next ((s2.setReg r (BitVec.ofInt 16 q)).setFlags
        { n := d.getLsbD 15, z := decide (q = 0), v := false,
          c := if (-k).toNat ≤ 16 then d.getLsbD ((-k).toNat - 1) else d.getLsbD 15 })) ∧
    (k = 0 → ∃ c n, (s2.cfg.ashZeroC = .clear → c = false ∧ n = s2.draws) ∧ (s2.cfg.ashZeroC = .keep → c = s2.flags.c ∧ n = s2.draws) ∧
      exec i s = .next ((({ s2 with draws := n } : State).setReg r d).setFlags { n := d.getLsbD 15, z := d == 0, v := false, c := c }))

/-- `ashc` with an even register: the same on the pair as a long (42 R206, 10 R39). -/
def Obligations.ArithmeticShiftCombined : Prop :=
  ∀ (r : Reg) (ss : Operand) (s s1 s2 : State) (loc : Loc) (x : Word), regOdd r = false → operand .word ss s = .ok loc s1 →
    loadWord loc s1 = .ok x s2 →
    let k : Int := (x.extractLsb' 0 6).toInt
    let d : Long := (s2.reg r).setWidth 32 * 65536 + (s2.reg (regPair r)).setWidth 32
    let done := fun (u : State) (v : Long) => (u.setReg r (v.extractLsb' 16 16)).setReg (regPair r) (v.extractLsb' 0 16)
    (0 < k → let f : Int := d.toInt * 2 ^ k.toNat
      exec (.ashc r ss) s = .next ((done s2 (BitVec.ofInt 32 f)).setFlags
        { n := (BitVec.ofInt 32 f).getLsbD 31, z := BitVec.ofInt 32 f == 0, v := decide (f < -2147483648 ∨ 2147483647 < f),
          c := d.getLsbD (32 - k.toNat) })) ∧
    (k < 0 → let q : Int := d.toInt.fdiv (2 ^ (-k).toNat)
      exec (.ashc r ss) s = .next ((done s2 (BitVec.ofInt 32 q)).setFlags
        { n := d.getLsbD 31, z := decide (q = 0), v := false, c := d.getLsbD ((-k).toNat - 1) })) ∧
    (k = 0 → ∃ c n, (s2.cfg.ashZeroC = .clear → c = false ∧ n = s2.draws) ∧ (s2.cfg.ashZeroC = .keep → c = s2.flags.c ∧ n = s2.draws) ∧
      exec (.ashc r ss) s = .next ((done { s2 with draws := n } d).setFlags { n := d.getLsbD 31, z := d == 0, v := false, c := c }))

/-! ## Jumps and branches -/

/-- `jmp` goes to the address of its destination without reading it (43 R210); `jsr` pushes the linkage register, puts the return address
in it and jumps (R212); `rts` jumps to the linkage register and pops it (R211); `mark` frees the arguments below the PC, jumps to the frame
pointer and pops it (R213). -/
def Obligations.JumpsAndReturns : Prop :=
  ∀ (r : Reg) (dd : Operand) (nn : BitVec 6) (s s1 s2 : State) (ea x : Word) (pushed : Bool),
    (operand .word dd s = .ok (.mem ea pushed) s1 → exec (.jmp dd) s = .next { s1 with pc := ea }) ∧
    (operand .word dd s = .ok (.mem ea pushed) s1 → push (s1.reg r) s1 = .ok () s2 →
      exec (.jsr r dd) s = .next { (s2.setReg r s2.pc) with pc := ea }) ∧
    (pop { s with pc := s.reg r } = .ok x s1 → exec (.rts r) s = .next (s1.setReg r x)) ∧
    (pop { (s.setReg .sp (s.pc + BitVec.ofNat 16 (2 * nn.toNat))) with pc := s.r5 } = .ok x s1 →
      exec (.mark nn) s = .next { s1 with r5 := x })

/-- `sob`, encoded 077rnn, decrements its register and goes back `nn` words unless it became zero; no flag changes (43 R214, 30 R117). -/
def Obligations.SubtractOneAndBranch : Prop :=
  ∀ (r : Reg) (nn : BitVec 6) (s : State), let t := s.setReg r (s.reg r - 1)
    decodeWord (BitVec.ofNat 16 (0o077000 + 64 * r.bits.toNat + nn.toNat)) = some (.sob r nn) ∧
    exec (.sob r nn) s = .next (if s.reg r = 1 then t else { t with pc := t.pc - BitVec.ofNat 16 (2 * nn.toNat) })

/-- The fifteen branches: taken on their condition, to the PC plus twice the signed offset, modulo 2^16; nothing else changes (44 R220 to
R235, 30 R116). -/
def Obligations.Branches : Prop :=
  ∀ (nn : BitVec 8) (s : State),
    let taken : Result := .next { s with pc := BitVec.ofInt 16 (s.pc.toNat + 2 * nn.toInt) }
    let n := s.psw.getLsbD 3
    let z := s.psw.getLsbD 2
    let v := s.psw.getLsbD 1
    let c := s.psw.getLsbD 0
    exec (.br nn) s = taken ∧
    exec (.bne nn) s = (if z = false then taken else .next s) ∧
    exec (.beq nn) s = (if z = true then taken else .next s) ∧
    exec (.bge nn) s = (if n = v then taken else .next s) ∧
    exec (.blt nn) s = (if n ≠ v then taken else .next s) ∧
    exec (.bgt nn) s = (if z = false ∧ n = v then taken else .next s) ∧
    exec (.ble nn) s = (if z = true ∨ n ≠ v then taken else .next s) ∧
    exec (.bpl nn) s = (if n = false then taken else .next s) ∧
    exec (.bmi nn) s = (if n = true then taken else .next s) ∧
    exec (.bhi nn) s = (if c = false ∧ z = false then taken else .next s) ∧
    exec (.blos nn) s = (if c = true ∨ z = true then taken else .next s) ∧
    exec (.bvc nn) s = (if v = false then taken else .next s) ∧
    exec (.bvs nn) s = (if v = true then taken else .next s) ∧
    exec (.bcc nn) s = (if c = false then taken else .next s) ∧
    exec (.bcs nn) s = (if c = true then taken else .next s)

/-! ## Frames: what an instruction that completes leaves unchanged -/

/-- The instructions with one destination, `w` their width: the registers but the one the mode steps and the destination, the memory but the
word or byte at the destination's address, the other registers but what the store reaches, the PSW above its condition codes unless the
store lands on it. The model's choices in `othersAfterStore`: bit C of the page follows the MMU at translation, also where the store
reaches MMR0 (log 12); a store to a device changes nothing (log 8); the switches move where they are read (log 3). -/
def Obligations.FrameOneDestination : Prop :=
  ∀ (w : Width) (dd : Operand) (i : Instr) (s t : State),
    ((w = .word ∧ i ∈ [.swab dd, .clr dd, .com dd, .inc dd, .dec dd, .neg dd, .adc dd, .sbc dd, .ror dd, .rol dd, .asr dd, .asl dd,
        .sxt dd]) ∨
      (w = .byte ∧ i ∈ [.clrb dd, .comb dd, .incb dd, .decb dd, .negb dd, .adcb dd, .sbcb dd, .rorb dd, .rolb dd, .asrb dd,
        .aslb dd])) →
    completes i s t → ∃ loc s1, operand w dd s = .ok loc s1 ∧
      cellsKept s t [steppedCell s.mode dd, locCell s.mode loc] ∧ bytesKept w s.mode s1 loc s t ∧
      othersAfterStore s.mode s1 loc s t ∧ (ioTarget s.mode s1 loc ≠ some .psw → pswAboveKept s t)

/-- The instructions with a source and a destination that they write, `w` their width: as with one destination, whose address is the one
evaluated after the source has been read (30 R115). The model's choices are the same: bit C where the store reaches MMR0 (log 12), a store
to a device (log 8), the switches (log 3). -/
def Obligations.FrameTwoOperands : Prop :=
  ∀ (w : Width) (ss dd : Operand) (i : Instr) (s s2 t : State),
    ((w = .word ∧ i ∈ [.mov ss dd, .bic ss dd, .bis ss dd, .add ss dd, .sub ss dd] ∧ ∃ x, sourceWord ss s = .ok x s2) ∨
      (w = .byte ∧ i ∈ [.movb ss dd, .bicb ss dd, .bisb ss dd] ∧ ∃ x, sourceByte ss s = .ok x s2)) →
    completes i s t → ∃ loc s3, operand w dd s2 = .ok loc s3 ∧
      cellsKept s t [steppedCell s.mode ss, steppedCell s.mode dd, locCell s.mode loc] ∧ bytesKept w s.mode s3 loc s t ∧
      othersAfterStore s.mode s3 loc s t ∧ (ioTarget s.mode s3 loc ≠ some .psw → pswAboveKept s t)

/-- The instructions that only read their operands store nothing: all of memory and every register but those their modes step, the PC and
the condition codes stay; the switches move where they are read, and a device that is read changes nothing (the model's choices, logs 3,
8). -/
def Obligations.FrameReadOnly : Prop :=
  ∀ (ss dd : Operand) (i : Instr) (s t : State),
    (i ∈ [.cmp ss dd, .cmpb ss dd, .bit ss dd, .bitb ss dd] → completes i s t →
      cellsKept s t [steppedCell s.mode ss, steppedCell s.mode dd] ∧ memoryKept s t ∧ othersKept s t ∧ pswAboveKept s t) ∧
    (i ∈ [.tst dd, .tstb dd] → completes i s t →
      cellsKept s t [steppedCell s.mode dd] ∧ memoryKept s t ∧ othersKept s t ∧ pswAboveKept s t)

/-- `mul`, `div`, `ash` and `ashc` write the register of their code and the next one of its pair (`ash` the first only); `xor` stores as a
word instruction with one destination does, with the model's choices named there: bit C where the store reaches MMR0 (log 12), a store to a
device (log 8). The switches move where they are read (log 3). -/
def Obligations.FrameRegisterOperand : Prop :=
  ∀ (r : Reg) (ss : Operand) (i : Instr) (s t : State),
    (i ∈ [.mul r ss, .div r ss, .ash r ss, .ashc r ss] → completes i s t →
      cellsKept s t [steppedCell s.mode ss, cellOf s.mode r, cellOf s.mode (regPair r)] ∧ memoryKept s t ∧ othersKept s t ∧
        pswAboveKept s t ∧ (i = .ash r ss → cellsKept s t [steppedCell s.mode ss, cellOf s.mode r])) ∧
    (completes (.xor r ss) s t → ∃ loc s1, operand .word ss s = .ok loc s1 ∧
      cellsKept s t [steppedCell s.mode ss, locCell s.mode loc] ∧ bytesKept .word s.mode s1 loc s t ∧
      othersAfterStore s.mode s1 loc s t ∧ (ioTarget s.mode s1 loc ≠ some .psw → pswAboveKept s t))

/-- Jumps and returns store nothing: `jmp` steps the register of its mode, `rts` changes SP and its register, `mark` SP and R5, `rti` and
`rtt` SP and the PSW. The switches move where they are read, and a device that is read changes nothing (the model's choices, logs 3, 8). -/
def Obligations.FrameJumps : Prop :=
  ∀ (r : Reg) (dd : Operand) (nn : BitVec 6) (s t : State),
    (completes (.jmp dd) s t → cellsKept s t [steppedCell s.mode dd] ∧ memoryKept s t ∧ othersKept s t ∧ t.psw = s.psw) ∧
    (completes (.rts r) s t →
      cellsKept s t [some (spCell s.mode), cellOf s.mode r] ∧ memoryKept s t ∧ othersKept s t ∧ t.psw = s.psw) ∧
    (completes (.mark nn) s t →
      cellsKept s t [some (spCell s.mode), some .r5] ∧ memoryKept s t ∧ othersKept s t ∧ t.psw = s.psw) ∧
    (completes .rti s t → cellsKept s t [some (spCell s.mode)] ∧ memoryKept s t ∧ othersKept s t) ∧
    (completes .rtt s t → cellsKept s t [some (spCell s.mode)] ∧ memoryKept s t ∧ othersKept s { t with traceInhibit := s.traceInhibit })

/-- The instructions that push or pop and store: `jsr` stores the word below SP, `mfpi` the word below SP as its operand left it, `mtpi` the
word at its destination in the previous mode's space. (The linkage register of `jsr` is the one of the mode after the push, which could
land on the PSW.) The model's choices in `othersAfterStore`: the yellow stack check of `mtpi` through mode 4 on SP (log 14); bit C of the
page where the store reaches MMR0 (log 12); a store to a device changes nothing (log 8); the switches move where they are read (log 3). -/
def Obligations.FrameStack : Prop :=
  ∀ (r : Reg) (o : Operand) (s t : State),
    (completes (.jsr r o) s t → ∃ loc s1, operand .word o s = .ok loc s1 ∧
      cellsKept s t [steppedCell s.mode o, some (spCell s.mode), cellOf t.mode r] ∧
      bytesKept .word s.mode s1 (.mem (s1.reg .sp - 2) true) s t ∧
      othersAfterStore s.mode s1 (.mem (s1.reg .sp - 2) true) s t ∧
      (ioTarget s.mode s1 (.mem (s1.reg .sp - 2) true) ≠ some .psw → t.psw = s.psw)) ∧
    (completes (.mfpi o) s t → ∃ loc s1, operand .word o s = .ok loc s1 ∧
      cellsKept s t [steppedCell s.mode o, some (spCell s.mode)] ∧
      bytesKept .word s.mode s1 (.mem (s1.reg .sp - 2) true) s t ∧
      othersAfterStore s.mode s1 (.mem (s1.reg .sp - 2) true) s t ∧
      (ioTarget s.mode s1 (.mem (s1.reg .sp - 2) true) ≠ some .psw → pswAboveKept s t)) ∧
    (completes (.mtpi o) s t → ∃ v s1 loc s2, pop s = .ok v s1 ∧ operand .word o s1 = .ok loc s2 ∧
      cellsKept s t [some (spCell s.mode), steppedCell s.mode o, locCell s.prevMode loc] ∧
      bytesKept .word s.prevMode s2 loc s t ∧ othersAfterStore s.prevMode s2 loc s t ∧
      (ioTarget s.prevMode s2 loc ≠ some .psw → pswAboveKept s t))
end

