-- ==== Sys2Proof/Laws/State.lean ====
section
/-! SUPPORT. One lemma per field per update of `State`, so that no proof unfolds an update. -/

namespace Sys2Proof.Machine

/-! ## `setStackPointer` -/

@[simp] theorem setStackPointer_r0 (s : State) (m : Mode) (v : Word) :
    (s.setStackPointer m v).r0 = s.r0 := by cases m <;> rfl

@[simp] theorem setStackPointer_r1 (s : State) (m : Mode) (v : Word) :
    (s.setStackPointer m v).r1 = s.r1 := by cases m <;> rfl

@[simp] theorem setStackPointer_r2 (s : State) (m : Mode) (v : Word) :
    (s.setStackPointer m v).r2 = s.r2 := by cases m <;> rfl

@[simp] theorem setStackPointer_r3 (s : State) (m : Mode) (v : Word) :
    (s.setStackPointer m v).r3 = s.r3 := by cases m <;> rfl

@[simp] theorem setStackPointer_r4 (s : State) (m : Mode) (v : Word) :
    (s.setStackPointer m v).r4 = s.r4 := by cases m <;> rfl

@[simp] theorem setStackPointer_r5 (s : State) (m : Mode) (v : Word) :
    (s.setStackPointer m v).r5 = s.r5 := by cases m <;> rfl

@[simp] theorem setStackPointer_pc (s : State) (m : Mode) (v : Word) :
    (s.setStackPointer m v).pc = s.pc := by cases m <;> rfl

@[simp] theorem setStackPointer_psw (s : State) (m : Mode) (v : Word) :
    (s.setStackPointer m v).psw = s.psw := by cases m <;> rfl

@[simp] theorem setStackPointer_sr (s : State) (m : Mode) (v : Word) :
    (s.setStackPointer m v).sr = s.sr := by cases m <;> rfl

@[simp] theorem setStackPointer_switchMoves (s : State) (m : Mode) (v : Word) :
    (s.setStackPointer m v).switchMoves = s.switchMoves := by cases m <;> rfl

@[simp] theorem setStackPointer_dr (s : State) (m : Mode) (v : Word) :
    (s.setStackPointer m v).dr = s.dr := by cases m <;> rfl

@[simp] theorem setStackPointer_mmr0 (s : State) (m : Mode) (v : Word) :
    (s.setStackPointer m v).mmr0 = s.mmr0 := by cases m <;> rfl

@[simp] theorem setStackPointer_mmr2 (s : State) (m : Mode) (v : Word) :
    (s.setStackPointer m v).mmr2 = s.mmr2 := by cases m <;> rfl

@[simp] theorem setStackPointer_kernelPar (s : State) (m : Mode) (v : Word) :
    (s.setStackPointer m v).kernelPar = s.kernelPar := by cases m <;> rfl

@[simp] theorem setStackPointer_kernelPdr (s : State) (m : Mode) (v : Word) :
    (s.setStackPointer m v).kernelPdr = s.kernelPdr := by cases m <;> rfl

@[simp] theorem setStackPointer_userPar (s : State) (m : Mode) (v : Word) :
    (s.setStackPointer m v).userPar = s.userPar := by cases m <;> rfl

@[simp] theorem setStackPointer_userPdr (s : State) (m : Mode) (v : Word) :
    (s.setStackPointer m v).userPdr = s.userPdr := by cases m <;> rfl

@[simp] theorem setStackPointer_mem (s : State) (m : Mode) (v : Word) :
    (s.setStackPointer m v).mem = s.mem := by cases m <;> rfl

@[simp] theorem setStackPointer_pending (s : State) (m : Mode) (v : Word) :
    (s.setStackPointer m v).pending = s.pending := by cases m <;> rfl

@[simp] theorem setStackPointer_traceInhibit (s : State) (m : Mode) (v : Word) :
    (s.setStackPointer m v).traceInhibit = s.traceInhibit := by cases m <;> rfl

@[simp] theorem setStackPointer_run (s : State) (m : Mode) (v : Word) :
    (s.setStackPointer m v).run = s.run := by cases m <;> rfl

@[simp] theorem setStackPointer_yellowPending (s : State) (m : Mode) (v : Word) :
    (s.setStackPointer m v).yellowPending = s.yellowPending := by cases m <;> rfl

@[simp] theorem setStackPointer_ia (s : State) (m : Mode) (v : Word) :
    (s.setStackPointer m v).ia = s.ia := by cases m <;> rfl

@[simp] theorem setStackPointer_trapTaken (s : State) (m : Mode) (v : Word) :
    (s.setStackPointer m v).trapTaken = s.trapTaken := by cases m <;> rfl

@[simp] theorem setStackPointer_draws (s : State) (m : Mode) (v : Word) :
    (s.setStackPointer m v).draws = s.draws := by cases m <;> rfl

@[simp] theorem setStackPointer_cfg (s : State) (m : Mode) (v : Word) :
    (s.setStackPointer m v).cfg = s.cfg := by cases m <;> rfl

@[simp] theorem setStackPointer_kernel_ksp (s : State) (v : Word) : (s.setStackPointer .kernel v).ksp = v := rfl
@[simp] theorem setStackPointer_kernel_usp (s : State) (v : Word) : (s.setStackPointer .kernel v).usp = s.usp := rfl
@[simp] theorem setStackPointer_user_usp (s : State) (v : Word) : (s.setStackPointer .user v).usp = v := rfl
@[simp] theorem setStackPointer_user_ksp (s : State) (v : Word) : (s.setStackPointer .user v).ksp = s.ksp := rfl

/-! ## `setReg` -/

@[simp] theorem setReg_psw (s : State) (r : Reg) (v : Word) :
    (s.setReg r v).psw = s.psw := by cases r <;> simp [State.setReg]

@[simp] theorem setReg_sr (s : State) (r : Reg) (v : Word) :
    (s.setReg r v).sr = s.sr := by cases r <;> simp [State.setReg]

@[simp] theorem setReg_switchMoves (s : State) (r : Reg) (v : Word) :
    (s.setReg r v).switchMoves = s.switchMoves := by cases r <;> simp [State.setReg]

@[simp] theorem setReg_dr (s : State) (r : Reg) (v : Word) :
    (s.setReg r v).dr = s.dr := by cases r <;> simp [State.setReg]

@[simp] theorem setReg_mmr0 (s : State) (r : Reg) (v : Word) :
    (s.setReg r v).mmr0 = s.mmr0 := by cases r <;> simp [State.setReg]

@[simp] theorem setReg_mmr2 (s : State) (r : Reg) (v : Word) :
    (s.setReg r v).mmr2 = s.mmr2 := by cases r <;> simp [State.setReg]

@[simp] theorem setReg_kernelPar (s : State) (r : Reg) (v : Word) :
    (s.setReg r v).kernelPar = s.kernelPar := by cases r <;> simp [State.setReg]

@[simp] theorem setReg_kernelPdr (s : State) (r : Reg) (v : Word) :
    (s.setReg r v).kernelPdr = s.kernelPdr := by cases r <;> simp [State.setReg]

@[simp] theorem setReg_userPar (s : State) (r : Reg) (v : Word) :
    (s.setReg r v).userPar = s.userPar := by cases r <;> simp [State.setReg]

@[simp] theorem setReg_userPdr (s : State) (r : Reg) (v : Word) :
    (s.setReg r v).userPdr = s.userPdr := by cases r <;> simp [State.setReg]

@[simp] theorem setReg_mem (s : State) (r : Reg) (v : Word) :
    (s.setReg r v).mem = s.mem := by cases r <;> simp [State.setReg]

@[simp] theorem setReg_pending (s : State) (r : Reg) (v : Word) :
    (s.setReg r v).pending = s.pending := by cases r <;> simp [State.setReg]

@[simp] theorem setReg_traceInhibit (s : State) (r : Reg) (v : Word) :
    (s.setReg r v).traceInhibit = s.traceInhibit := by cases r <;> simp [State.setReg]

@[simp] theorem setReg_run (s : State) (r : Reg) (v : Word) :
    (s.setReg r v).run = s.run := by cases r <;> simp [State.setReg]

@[simp] theorem setReg_yellowPending (s : State) (r : Reg) (v : Word) :
    (s.setReg r v).yellowPending = s.yellowPending := by cases r <;> simp [State.setReg]

@[simp] theorem setReg_ia (s : State) (r : Reg) (v : Word) :
    (s.setReg r v).ia = s.ia := by cases r <;> simp [State.setReg]

@[simp] theorem setReg_trapTaken (s : State) (r : Reg) (v : Word) :
    (s.setReg r v).trapTaken = s.trapTaken := by cases r <;> simp [State.setReg]

@[simp] theorem setReg_draws (s : State) (r : Reg) (v : Word) :
    (s.setReg r v).draws = s.draws := by cases r <;> simp [State.setReg]

@[simp] theorem setReg_cfg (s : State) (r : Reg) (v : Word) :
    (s.setReg r v).cfg = s.cfg := by cases r <;> simp [State.setReg]

@[simp] theorem setReg_r0_r0 (s : State) (v : Word) : (s.setReg .r0 v).r0 = v := rfl

@[simp] theorem setReg_r0_r1 (s : State) (v : Word) : (s.setReg .r0 v).r1 = s.r1 := rfl

@[simp] theorem setReg_r0_r2 (s : State) (v : Word) : (s.setReg .r0 v).r2 = s.r2 := rfl

@[simp] theorem setReg_r0_r3 (s : State) (v : Word) : (s.setReg .r0 v).r3 = s.r3 := rfl

@[simp] theorem setReg_r0_r4 (s : State) (v : Word) : (s.setReg .r0 v).r4 = s.r4 := rfl

@[simp] theorem setReg_r0_r5 (s : State) (v : Word) : (s.setReg .r0 v).r5 = s.r5 := rfl

@[simp] theorem setReg_r0_ksp (s : State) (v : Word) : (s.setReg .r0 v).ksp = s.ksp := rfl

@[simp] theorem setReg_r0_usp (s : State) (v : Word) : (s.setReg .r0 v).usp = s.usp := rfl

@[simp] theorem setReg_r0_pc (s : State) (v : Word) : (s.setReg .r0 v).pc = s.pc := rfl

@[simp] theorem setReg_r1_r0 (s : State) (v : Word) : (s.setReg .r1 v).r0 = s.r0 := rfl

@[simp] theorem setReg_r1_r1 (s : State) (v : Word) : (s.setReg .r1 v).r1 = v := rfl

@[simp] theorem setReg_r1_r2 (s : State) (v : Word) : (s.setReg .r1 v).r2 = s.r2 := rfl

@[simp] theorem setReg_r1_r3 (s : State) (v : Word) : (s.setReg .r1 v).r3 = s.r3 := rfl

@[simp] theorem setReg_r1_r4 (s : State) (v : Word) : (s.setReg .r1 v).r4 = s.r4 := rfl

@[simp] theorem setReg_r1_r5 (s : State) (v : Word) : (s.setReg .r1 v).r5 = s.r5 := rfl

@[simp] theorem setReg_r1_ksp (s : State) (v : Word) : (s.setReg .r1 v).ksp = s.ksp := rfl

@[simp] theorem setReg_r1_usp (s : State) (v : Word) : (s.setReg .r1 v).usp = s.usp := rfl

@[simp] theorem setReg_r1_pc (s : State) (v : Word) : (s.setReg .r1 v).pc = s.pc := rfl

@[simp] theorem setReg_r2_r0 (s : State) (v : Word) : (s.setReg .r2 v).r0 = s.r0 := rfl

@[simp] theorem setReg_r2_r1 (s : State) (v : Word) : (s.setReg .r2 v).r1 = s.r1 := rfl

@[simp] theorem setReg_r2_r2 (s : State) (v : Word) : (s.setReg .r2 v).r2 = v := rfl

@[simp] theorem setReg_r2_r3 (s : State) (v : Word) : (s.setReg .r2 v).r3 = s.r3 := rfl

@[simp] theorem setReg_r2_r4 (s : State) (v : Word) : (s.setReg .r2 v).r4 = s.r4 := rfl

@[simp] theorem setReg_r2_r5 (s : State) (v : Word) : (s.setReg .r2 v).r5 = s.r5 := rfl

@[simp] theorem setReg_r2_ksp (s : State) (v : Word) : (s.setReg .r2 v).ksp = s.ksp := rfl

@[simp] theorem setReg_r2_usp (s : State) (v : Word) : (s.setReg .r2 v).usp = s.usp := rfl

@[simp] theorem setReg_r2_pc (s : State) (v : Word) : (s.setReg .r2 v).pc = s.pc := rfl

@[simp] theorem setReg_r3_r0 (s : State) (v : Word) : (s.setReg .r3 v).r0 = s.r0 := rfl

@[simp] theorem setReg_r3_r1 (s : State) (v : Word) : (s.setReg .r3 v).r1 = s.r1 := rfl

@[simp] theorem setReg_r3_r2 (s : State) (v : Word) : (s.setReg .r3 v).r2 = s.r2 := rfl

@[simp] theorem setReg_r3_r3 (s : State) (v : Word) : (s.setReg .r3 v).r3 = v := rfl

@[simp] theorem setReg_r3_r4 (s : State) (v : Word) : (s.setReg .r3 v).r4 = s.r4 := rfl

@[simp] theorem setReg_r3_r5 (s : State) (v : Word) : (s.setReg .r3 v).r5 = s.r5 := rfl

@[simp] theorem setReg_r3_ksp (s : State) (v : Word) : (s.setReg .r3 v).ksp = s.ksp := rfl

@[simp] theorem setReg_r3_usp (s : State) (v : Word) : (s.setReg .r3 v).usp = s.usp := rfl

@[simp] theorem setReg_r3_pc (s : State) (v : Word) : (s.setReg .r3 v).pc = s.pc := rfl

@[simp] theorem setReg_r4_r0 (s : State) (v : Word) : (s.setReg .r4 v).r0 = s.r0 := rfl

@[simp] theorem setReg_r4_r1 (s : State) (v : Word) : (s.setReg .r4 v).r1 = s.r1 := rfl

@[simp] theorem setReg_r4_r2 (s : State) (v : Word) : (s.setReg .r4 v).r2 = s.r2 := rfl

@[simp] theorem setReg_r4_r3 (s : State) (v : Word) : (s.setReg .r4 v).r3 = s.r3 := rfl

@[simp] theorem setReg_r4_r4 (s : State) (v : Word) : (s.setReg .r4 v).r4 = v := rfl

@[simp] theorem setReg_r4_r5 (s : State) (v : Word) : (s.setReg .r4 v).r5 = s.r5 := rfl

@[simp] theorem setReg_r4_ksp (s : State) (v : Word) : (s.setReg .r4 v).ksp = s.ksp := rfl

@[simp] theorem setReg_r4_usp (s : State) (v : Word) : (s.setReg .r4 v).usp = s.usp := rfl

@[simp] theorem setReg_r4_pc (s : State) (v : Word) : (s.setReg .r4 v).pc = s.pc := rfl

@[simp] theorem setReg_r5_r0 (s : State) (v : Word) : (s.setReg .r5 v).r0 = s.r0 := rfl

@[simp] theorem setReg_r5_r1 (s : State) (v : Word) : (s.setReg .r5 v).r1 = s.r1 := rfl

@[simp] theorem setReg_r5_r2 (s : State) (v : Word) : (s.setReg .r5 v).r2 = s.r2 := rfl

@[simp] theorem setReg_r5_r3 (s : State) (v : Word) : (s.setReg .r5 v).r3 = s.r3 := rfl

@[simp] theorem setReg_r5_r4 (s : State) (v : Word) : (s.setReg .r5 v).r4 = s.r4 := rfl

@[simp] theorem setReg_r5_r5 (s : State) (v : Word) : (s.setReg .r5 v).r5 = v := rfl

@[simp] theorem setReg_r5_ksp (s : State) (v : Word) : (s.setReg .r5 v).ksp = s.ksp := rfl

@[simp] theorem setReg_r5_usp (s : State) (v : Word) : (s.setReg .r5 v).usp = s.usp := rfl

@[simp] theorem setReg_r5_pc (s : State) (v : Word) : (s.setReg .r5 v).pc = s.pc := rfl

theorem setReg_sp (s : State) (v : Word) : s.setReg .sp v = s.setStackPointer s.mode v := rfl

@[simp] theorem setReg_pc_r0 (s : State) (v : Word) : (s.setReg .pc v).r0 = s.r0 := rfl

@[simp] theorem setReg_pc_r1 (s : State) (v : Word) : (s.setReg .pc v).r1 = s.r1 := rfl

@[simp] theorem setReg_pc_r2 (s : State) (v : Word) : (s.setReg .pc v).r2 = s.r2 := rfl

@[simp] theorem setReg_pc_r3 (s : State) (v : Word) : (s.setReg .pc v).r3 = s.r3 := rfl

@[simp] theorem setReg_pc_r4 (s : State) (v : Word) : (s.setReg .pc v).r4 = s.r4 := rfl

@[simp] theorem setReg_pc_r5 (s : State) (v : Word) : (s.setReg .pc v).r5 = s.r5 := rfl

@[simp] theorem setReg_pc_ksp (s : State) (v : Word) : (s.setReg .pc v).ksp = s.ksp := rfl

@[simp] theorem setReg_pc_usp (s : State) (v : Word) : (s.setReg .pc v).usp = s.usp := rfl

@[simp] theorem setReg_pc_pc (s : State) (v : Word) : (s.setReg .pc v).pc = v := rfl

/-! ## `setFlags` -/

@[simp] theorem setFlags_r0 (s : State) (f : Flags) :
    (s.setFlags f).r0 = s.r0 := rfl

@[simp] theorem setFlags_r1 (s : State) (f : Flags) :
    (s.setFlags f).r1 = s.r1 := rfl

@[simp] theorem setFlags_r2 (s : State) (f : Flags) :
    (s.setFlags f).r2 = s.r2 := rfl

@[simp] theorem setFlags_r3 (s : State) (f : Flags) :
    (s.setFlags f).r3 = s.r3 := rfl

@[simp] theorem setFlags_r4 (s : State) (f : Flags) :
    (s.setFlags f).r4 = s.r4 := rfl

@[simp] theorem setFlags_r5 (s : State) (f : Flags) :
    (s.setFlags f).r5 = s.r5 := rfl

@[simp] theorem setFlags_ksp (s : State) (f : Flags) :
    (s.setFlags f).ksp = s.ksp := rfl

@[simp] theorem setFlags_usp (s : State) (f : Flags) :
    (s.setFlags f).usp = s.usp := rfl

@[simp] theorem setFlags_pc (s : State) (f : Flags) :
    (s.setFlags f).pc = s.pc := rfl

@[simp] theorem setFlags_sr (s : State) (f : Flags) :
    (s.setFlags f).sr = s.sr := rfl

@[simp] theorem setFlags_switchMoves (s : State) (f : Flags) :
    (s.setFlags f).switchMoves = s.switchMoves := rfl

@[simp] theorem setFlags_dr (s : State) (f : Flags) :
    (s.setFlags f).dr = s.dr := rfl

@[simp] theorem setFlags_mmr0 (s : State) (f : Flags) :
    (s.setFlags f).mmr0 = s.mmr0 := rfl

@[simp] theorem setFlags_mmr2 (s : State) (f : Flags) :
    (s.setFlags f).mmr2 = s.mmr2 := rfl

@[simp] theorem setFlags_kernelPar (s : State) (f : Flags) :
    (s.setFlags f).kernelPar = s.kernelPar := rfl

@[simp] theorem setFlags_kernelPdr (s : State) (f : Flags) :
    (s.setFlags f).kernelPdr = s.kernelPdr := rfl

@[simp] theorem setFlags_userPar (s : State) (f : Flags) :
    (s.setFlags f).userPar = s.userPar := rfl

@[simp] theorem setFlags_userPdr (s : State) (f : Flags) :
    (s.setFlags f).userPdr = s.userPdr := rfl

@[simp] theorem setFlags_mem (s : State) (f : Flags) :
    (s.setFlags f).mem = s.mem := rfl

@[simp] theorem setFlags_pending (s : State) (f : Flags) :
    (s.setFlags f).pending = s.pending := rfl

@[simp] theorem setFlags_traceInhibit (s : State) (f : Flags) :
    (s.setFlags f).traceInhibit = s.traceInhibit := rfl

@[simp] theorem setFlags_run (s : State) (f : Flags) :
    (s.setFlags f).run = s.run := rfl

@[simp] theorem setFlags_yellowPending (s : State) (f : Flags) :
    (s.setFlags f).yellowPending = s.yellowPending := rfl

@[simp] theorem setFlags_ia (s : State) (f : Flags) :
    (s.setFlags f).ia = s.ia := rfl

@[simp] theorem setFlags_trapTaken (s : State) (f : Flags) :
    (s.setFlags f).trapTaken = s.trapTaken := rfl

@[simp] theorem setFlags_draws (s : State) (f : Flags) :
    (s.setFlags f).draws = s.draws := rfl

@[simp] theorem setFlags_cfg (s : State) (f : Flags) :
    (s.setFlags f).cfg = s.cfg := rfl

@[simp] theorem setFlags_psw (s : State) (f : Flags) : (s.setFlags f).psw = pswWithFlags s.psw f := rfl

/-! ## `setPar` and `setPdr` -/

@[simp] theorem setPar_r0 (s : State) (m : Mode) (p : BitVec 3) (v : Word) :
    (s.setPar m p v).r0 = s.r0 := by cases m <;> rfl

@[simp] theorem setPar_r1 (s : State) (m : Mode) (p : BitVec 3) (v : Word) :
    (s.setPar m p v).r1 = s.r1 := by cases m <;> rfl

@[simp] theorem setPar_r2 (s : State) (m : Mode) (p : BitVec 3) (v : Word) :
    (s.setPar m p v).r2 = s.r2 := by cases m <;> rfl

@[simp] theorem setPar_r3 (s : State) (m : Mode) (p : BitVec 3) (v : Word) :
    (s.setPar m p v).r3 = s.r3 := by cases m <;> rfl

@[simp] theorem setPar_r4 (s : State) (m : Mode) (p : BitVec 3) (v : Word) :
    (s.setPar m p v).r4 = s.r4 := by cases m <;> rfl

@[simp] theorem setPar_r5 (s : State) (m : Mode) (p : BitVec 3) (v : Word) :
    (s.setPar m p v).r5 = s.r5 := by cases m <;> rfl

@[simp] theorem setPar_ksp (s : State) (m : Mode) (p : BitVec 3) (v : Word) :
    (s.setPar m p v).ksp = s.ksp := by cases m <;> rfl

@[simp] theorem setPar_usp (s : State) (m : Mode) (p : BitVec 3) (v : Word) :
    (s.setPar m p v).usp = s.usp := by cases m <;> rfl

@[simp] theorem setPar_pc (s : State) (m : Mode) (p : BitVec 3) (v : Word) :
    (s.setPar m p v).pc = s.pc := by cases m <;> rfl

@[simp] theorem setPar_psw (s : State) (m : Mode) (p : BitVec 3) (v : Word) :
    (s.setPar m p v).psw = s.psw := by cases m <;> rfl

@[simp] theorem setPar_sr (s : State) (m : Mode) (p : BitVec 3) (v : Word) :
    (s.setPar m p v).sr = s.sr := by cases m <;> rfl

@[simp] theorem setPar_switchMoves (s : State) (m : Mode) (p : BitVec 3) (v : Word) :
    (s.setPar m p v).switchMoves = s.switchMoves := by cases m <;> rfl

@[simp] theorem setPar_dr (s : State) (m : Mode) (p : BitVec 3) (v : Word) :
    (s.setPar m p v).dr = s.dr := by cases m <;> rfl

@[simp] theorem setPar_mmr0 (s : State) (m : Mode) (p : BitVec 3) (v : Word) :
    (s.setPar m p v).mmr0 = s.mmr0 := by cases m <;> rfl

@[simp] theorem setPar_mmr2 (s : State) (m : Mode) (p : BitVec 3) (v : Word) :
    (s.setPar m p v).mmr2 = s.mmr2 := by cases m <;> rfl

@[simp] theorem setPar_kernelPdr (s : State) (m : Mode) (p : BitVec 3) (v : Word) :
    (s.setPar m p v).kernelPdr = s.kernelPdr := by cases m <;> rfl

@[simp] theorem setPar_userPdr (s : State) (m : Mode) (p : BitVec 3) (v : Word) :
    (s.setPar m p v).userPdr = s.userPdr := by cases m <;> rfl

@[simp] theorem setPar_mem (s : State) (m : Mode) (p : BitVec 3) (v : Word) :
    (s.setPar m p v).mem = s.mem := by cases m <;> rfl

@[simp] theorem setPar_pending (s : State) (m : Mode) (p : BitVec 3) (v : Word) :
    (s.setPar m p v).pending = s.pending := by cases m <;> rfl

@[simp] theorem setPar_traceInhibit (s : State) (m : Mode) (p : BitVec 3) (v : Word) :
    (s.setPar m p v).traceInhibit = s.traceInhibit := by cases m <;> rfl

@[simp] theorem setPar_run (s : State) (m : Mode) (p : BitVec 3) (v : Word) :
    (s.setPar m p v).run = s.run := by cases m <;> rfl

@[simp] theorem setPar_yellowPending (s : State) (m : Mode) (p : BitVec 3) (v : Word) :
    (s.setPar m p v).yellowPending = s.yellowPending := by cases m <;> rfl

@[simp] theorem setPar_ia (s : State) (m : Mode) (p : BitVec 3) (v : Word) :
    (s.setPar m p v).ia = s.ia := by cases m <;> rfl

@[simp] theorem setPar_trapTaken (s : State) (m : Mode) (p : BitVec 3) (v : Word) :
    (s.setPar m p v).trapTaken = s.trapTaken := by cases m <;> rfl

@[simp] theorem setPar_draws (s : State) (m : Mode) (p : BitVec 3) (v : Word) :
    (s.setPar m p v).draws = s.draws := by cases m <;> rfl

@[simp] theorem setPar_cfg (s : State) (m : Mode) (p : BitVec 3) (v : Word) :
    (s.setPar m p v).cfg = s.cfg := by cases m <;> rfl

@[simp] theorem setPar_user_kernelPar (s : State) (p : BitVec 3) (v : Word) : (s.setPar .user p v).kernelPar = s.kernelPar := rfl

@[simp] theorem setPar_kernel_userPar (s : State) (p : BitVec 3) (v : Word) : (s.setPar .kernel p v).userPar = s.userPar := rfl

@[simp] theorem setPdr_r0 (s : State) (m : Mode) (p : BitVec 3) (v : Word) :
    (s.setPdr m p v).r0 = s.r0 := by cases m <;> rfl

@[simp] theorem setPdr_r1 (s : State) (m : Mode) (p : BitVec 3) (v : Word) :
    (s.setPdr m p v).r1 = s.r1 := by cases m <;> rfl

@[simp] theorem setPdr_r2 (s : State) (m : Mode) (p : BitVec 3) (v : Word) :
    (s.setPdr m p v).r2 = s.r2 := by cases m <;> rfl

@[simp] theorem setPdr_r3 (s : State) (m : Mode) (p : BitVec 3) (v : Word) :
    (s.setPdr m p v).r3 = s.r3 := by cases m <;> rfl

@[simp] theorem setPdr_r4 (s : State) (m : Mode) (p : BitVec 3) (v : Word) :
    (s.setPdr m p v).r4 = s.r4 := by cases m <;> rfl

@[simp] theorem setPdr_r5 (s : State) (m : Mode) (p : BitVec 3) (v : Word) :
    (s.setPdr m p v).r5 = s.r5 := by cases m <;> rfl

@[simp] theorem setPdr_ksp (s : State) (m : Mode) (p : BitVec 3) (v : Word) :
    (s.setPdr m p v).ksp = s.ksp := by cases m <;> rfl

@[simp] theorem setPdr_usp (s : State) (m : Mode) (p : BitVec 3) (v : Word) :
    (s.setPdr m p v).usp = s.usp := by cases m <;> rfl

@[simp] theorem setPdr_pc (s : State) (m : Mode) (p : BitVec 3) (v : Word) :
    (s.setPdr m p v).pc = s.pc := by cases m <;> rfl

@[simp] theorem setPdr_psw (s : State) (m : Mode) (p : BitVec 3) (v : Word) :
    (s.setPdr m p v).psw = s.psw := by cases m <;> rfl

@[simp] theorem setPdr_sr (s : State) (m : Mode) (p : BitVec 3) (v : Word) :
    (s.setPdr m p v).sr = s.sr := by cases m <;> rfl

@[simp] theorem setPdr_switchMoves (s : State) (m : Mode) (p : BitVec 3) (v : Word) :
    (s.setPdr m p v).switchMoves = s.switchMoves := by cases m <;> rfl

@[simp] theorem setPdr_dr (s : State) (m : Mode) (p : BitVec 3) (v : Word) :
    (s.setPdr m p v).dr = s.dr := by cases m <;> rfl

@[simp] theorem setPdr_mmr0 (s : State) (m : Mode) (p : BitVec 3) (v : Word) :
    (s.setPdr m p v).mmr0 = s.mmr0 := by cases m <;> rfl

@[simp] theorem setPdr_mmr2 (s : State) (m : Mode) (p : BitVec 3) (v : Word) :
    (s.setPdr m p v).mmr2 = s.mmr2 := by cases m <;> rfl

@[simp] theorem setPdr_kernelPar (s : State) (m : Mode) (p : BitVec 3) (v : Word) :
    (s.setPdr m p v).kernelPar = s.kernelPar := by cases m <;> rfl

@[simp] theorem setPdr_userPar (s : State) (m : Mode) (p : BitVec 3) (v : Word) :
    (s.setPdr m p v).userPar = s.userPar := by cases m <;> rfl

@[simp] theorem setPdr_mem (s : State) (m : Mode) (p : BitVec 3) (v : Word) :
    (s.setPdr m p v).mem = s.mem := by cases m <;> rfl

@[simp] theorem setPdr_pending (s : State) (m : Mode) (p : BitVec 3) (v : Word) :
    (s.setPdr m p v).pending = s.pending := by cases m <;> rfl

@[simp] theorem setPdr_traceInhibit (s : State) (m : Mode) (p : BitVec 3) (v : Word) :
    (s.setPdr m p v).traceInhibit = s.traceInhibit := by cases m <;> rfl

@[simp] theorem setPdr_run (s : State) (m : Mode) (p : BitVec 3) (v : Word) :
    (s.setPdr m p v).run = s.run := by cases m <;> rfl

@[simp] theorem setPdr_yellowPending (s : State) (m : Mode) (p : BitVec 3) (v : Word) :
    (s.setPdr m p v).yellowPending = s.yellowPending := by cases m <;> rfl

@[simp] theorem setPdr_ia (s : State) (m : Mode) (p : BitVec 3) (v : Word) :
    (s.setPdr m p v).ia = s.ia := by cases m <;> rfl

@[simp] theorem setPdr_trapTaken (s : State) (m : Mode) (p : BitVec 3) (v : Word) :
    (s.setPdr m p v).trapTaken = s.trapTaken := by cases m <;> rfl

@[simp] theorem setPdr_draws (s : State) (m : Mode) (p : BitVec 3) (v : Word) :
    (s.setPdr m p v).draws = s.draws := by cases m <;> rfl

@[simp] theorem setPdr_cfg (s : State) (m : Mode) (p : BitVec 3) (v : Word) :
    (s.setPdr m p v).cfg = s.cfg := by cases m <;> rfl

@[simp] theorem setPdr_user_kernelPdr (s : State) (p : BitVec 3) (v : Word) : (s.setPdr .user p v).kernelPdr = s.kernelPdr := rfl

@[simp] theorem setPdr_kernel_userPdr (s : State) (p : BitVec 3) (v : Word) : (s.setPdr .kernel p v).userPdr = s.userPdr := rfl

/-! ## `putByte` and `putWord` -/

@[simp] theorem putByte_r0 (s : State) (a : Nat) (v : Byte) :
    (s.putByte a v).r0 = s.r0 := rfl

@[simp] theorem putByte_r1 (s : State) (a : Nat) (v : Byte) :
    (s.putByte a v).r1 = s.r1 := rfl

@[simp] theorem putByte_r2 (s : State) (a : Nat) (v : Byte) :
    (s.putByte a v).r2 = s.r2 := rfl

@[simp] theorem putByte_r3 (s : State) (a : Nat) (v : Byte) :
    (s.putByte a v).r3 = s.r3 := rfl

@[simp] theorem putByte_r4 (s : State) (a : Nat) (v : Byte) :
    (s.putByte a v).r4 = s.r4 := rfl

@[simp] theorem putByte_r5 (s : State) (a : Nat) (v : Byte) :
    (s.putByte a v).r5 = s.r5 := rfl

@[simp] theorem putByte_ksp (s : State) (a : Nat) (v : Byte) :
    (s.putByte a v).ksp = s.ksp := rfl

@[simp] theorem putByte_usp (s : State) (a : Nat) (v : Byte) :
    (s.putByte a v).usp = s.usp := rfl

@[simp] theorem putByte_pc (s : State) (a : Nat) (v : Byte) :
    (s.putByte a v).pc = s.pc := rfl

@[simp] theorem putByte_psw (s : State) (a : Nat) (v : Byte) :
    (s.putByte a v).psw = s.psw := rfl

@[simp] theorem putByte_sr (s : State) (a : Nat) (v : Byte) :
    (s.putByte a v).sr = s.sr := rfl

@[simp] theorem putByte_switchMoves (s : State) (a : Nat) (v : Byte) :
    (s.putByte a v).switchMoves = s.switchMoves := rfl

@[simp] theorem putByte_dr (s : State) (a : Nat) (v : Byte) :
    (s.putByte a v).dr = s.dr := rfl

@[simp] theorem putByte_mmr0 (s : State) (a : Nat) (v : Byte) :
    (s.putByte a v).mmr0 = s.mmr0 := rfl

@[simp] theorem putByte_mmr2 (s : State) (a : Nat) (v : Byte) :
    (s.putByte a v).mmr2 = s.mmr2 := rfl

@[simp] theorem putByte_kernelPar (s : State) (a : Nat) (v : Byte) :
    (s.putByte a v).kernelPar = s.kernelPar := rfl

@[simp] theorem putByte_kernelPdr (s : State) (a : Nat) (v : Byte) :
    (s.putByte a v).kernelPdr = s.kernelPdr := rfl

@[simp] theorem putByte_userPar (s : State) (a : Nat) (v : Byte) :
    (s.putByte a v).userPar = s.userPar := rfl

@[simp] theorem putByte_userPdr (s : State) (a : Nat) (v : Byte) :
    (s.putByte a v).userPdr = s.userPdr := rfl

@[simp] theorem putByte_pending (s : State) (a : Nat) (v : Byte) :
    (s.putByte a v).pending = s.pending := rfl

@[simp] theorem putByte_traceInhibit (s : State) (a : Nat) (v : Byte) :
    (s.putByte a v).traceInhibit = s.traceInhibit := rfl

@[simp] theorem putByte_run (s : State) (a : Nat) (v : Byte) :
    (s.putByte a v).run = s.run := rfl

@[simp] theorem putByte_yellowPending (s : State) (a : Nat) (v : Byte) :
    (s.putByte a v).yellowPending = s.yellowPending := rfl

@[simp] theorem putByte_ia (s : State) (a : Nat) (v : Byte) :
    (s.putByte a v).ia = s.ia := rfl

@[simp] theorem putByte_trapTaken (s : State) (a : Nat) (v : Byte) :
    (s.putByte a v).trapTaken = s.trapTaken := rfl

@[simp] theorem putByte_draws (s : State) (a : Nat) (v : Byte) :
    (s.putByte a v).draws = s.draws := rfl

@[simp] theorem putByte_cfg (s : State) (a : Nat) (v : Byte) :
    (s.putByte a v).cfg = s.cfg := rfl

@[simp] theorem putWord_r0 (s : State) (a : Nat) (v : Word) :
    (s.putWord a v).r0 = s.r0 := rfl

@[simp] theorem putWord_r1 (s : State) (a : Nat) (v : Word) :
    (s.putWord a v).r1 = s.r1 := rfl

@[simp] theorem putWord_r2 (s : State) (a : Nat) (v : Word) :
    (s.putWord a v).r2 = s.r2 := rfl

@[simp] theorem putWord_r3 (s : State) (a : Nat) (v : Word) :
    (s.putWord a v).r3 = s.r3 := rfl

@[simp] theorem putWord_r4 (s : State) (a : Nat) (v : Word) :
    (s.putWord a v).r4 = s.r4 := rfl

@[simp] theorem putWord_r5 (s : State) (a : Nat) (v : Word) :
    (s.putWord a v).r5 = s.r5 := rfl

@[simp] theorem putWord_ksp (s : State) (a : Nat) (v : Word) :
    (s.putWord a v).ksp = s.ksp := rfl

@[simp] theorem putWord_usp (s : State) (a : Nat) (v : Word) :
    (s.putWord a v).usp = s.usp := rfl

@[simp] theorem putWord_pc (s : State) (a : Nat) (v : Word) :
    (s.putWord a v).pc = s.pc := rfl

@[simp] theorem putWord_psw (s : State) (a : Nat) (v : Word) :
    (s.putWord a v).psw = s.psw := rfl

@[simp] theorem putWord_sr (s : State) (a : Nat) (v : Word) :
    (s.putWord a v).sr = s.sr := rfl

@[simp] theorem putWord_switchMoves (s : State) (a : Nat) (v : Word) :
    (s.putWord a v).switchMoves = s.switchMoves := rfl

@[simp] theorem putWord_dr (s : State) (a : Nat) (v : Word) :
    (s.putWord a v).dr = s.dr := rfl

@[simp] theorem putWord_mmr0 (s : State) (a : Nat) (v : Word) :
    (s.putWord a v).mmr0 = s.mmr0 := rfl

@[simp] theorem putWord_mmr2 (s : State) (a : Nat) (v : Word) :
    (s.putWord a v).mmr2 = s.mmr2 := rfl

@[simp] theorem putWord_kernelPar (s : State) (a : Nat) (v : Word) :
    (s.putWord a v).kernelPar = s.kernelPar := rfl

@[simp] theorem putWord_kernelPdr (s : State) (a : Nat) (v : Word) :
    (s.putWord a v).kernelPdr = s.kernelPdr := rfl

@[simp] theorem putWord_userPar (s : State) (a : Nat) (v : Word) :
    (s.putWord a v).userPar = s.userPar := rfl

@[simp] theorem putWord_userPdr (s : State) (a : Nat) (v : Word) :
    (s.putWord a v).userPdr = s.userPdr := rfl

@[simp] theorem putWord_pending (s : State) (a : Nat) (v : Word) :
    (s.putWord a v).pending = s.pending := rfl

@[simp] theorem putWord_traceInhibit (s : State) (a : Nat) (v : Word) :
    (s.putWord a v).traceInhibit = s.traceInhibit := rfl

@[simp] theorem putWord_run (s : State) (a : Nat) (v : Word) :
    (s.putWord a v).run = s.run := rfl

@[simp] theorem putWord_yellowPending (s : State) (a : Nat) (v : Word) :
    (s.putWord a v).yellowPending = s.yellowPending := rfl

@[simp] theorem putWord_ia (s : State) (a : Nat) (v : Word) :
    (s.putWord a v).ia = s.ia := rfl

@[simp] theorem putWord_trapTaken (s : State) (a : Nat) (v : Word) :
    (s.putWord a v).trapTaken = s.trapTaken := rfl

@[simp] theorem putWord_draws (s : State) (a : Nat) (v : Word) :
    (s.putWord a v).draws = s.draws := rfl

@[simp] theorem putWord_cfg (s : State) (a : Nat) (v : Word) :
    (s.putWord a v).cfg = s.cfg := rfl

@[simp] theorem putByte_mem (s : State) (a : Nat) (v : Byte) : (s.putByte a v).mem = memInsert s.mem a v := rfl

end Sys2Proof.Machine
end

