-- ==== Sys2Proof/Laws/Registers.lean ====
section
/-! SUPPORT. Reads of registers, modes and condition codes after updates; the fields of the PSW. -/

namespace Sys2Proof.Machine

/-! ## The PSW -/

@[simp] theorem getLsbD_flagWord (f : Flags) (i : Nat) :
    (flagWord f).getLsbD i =
      (if i = 0 then f.c else if i = 1 then f.v else if i = 2 then f.z else if i = 3 then f.n else false) := by
  rcases f with ⟨n, z, v, c⟩
  rcases i with _ | _ | _ | _ | i
  · revert n z v c; decide
  · revert n z v c; decide
  · revert n z v c; decide
  · revert n z v c; decide
  · by_cases h : i < 12
    · revert n z v c; interval_cases i <;> decide
    · rw [BitVec.getLsbD_of_ge _ _ (by omega)]; simp

@[simp] theorem getLsbD_pswWithFlags (p : Word) (f : Flags) (i : Nat) :
    (pswWithFlags p f).getLsbD i = if i < 4 then (flagWord f).getLsbD i else p.getLsbD i := by
  by_cases h : i < 16
  · rw [pswWithFlags, BitVec.getLsbD_or, BitVec.getLsbD_and, getLsbD_flagWord]
    interval_cases i <;> simp
  · rw [BitVec.getLsbD_of_ge _ _ (by omega), BitVec.getLsbD_of_ge p _ (by omega)]
    simp [show ¬ i < 4 by omega]

/-- Assigning the condition codes leaves the bits above them alone (10 R25). -/
theorem pswWithFlags_extract (p : Word) (f : Flags) (lo len : Nat) (hlo : 4 ≤ lo) :
    (pswWithFlags p f).extractLsb' lo len = p.extractLsb' lo len := by
  apply BitVec.eq_of_getLsbD_eq
  intro i hi
  simp [BitVec.getLsbD_extractLsb', show ¬ lo + i < 4 by omega]

@[simp] theorem pswCM_pswWithFlags (p : Word) (f : Flags) : pswCM (pswWithFlags p f) = pswCM p :=
  pswWithFlags_extract p f 14 2 (by decide)

@[simp] theorem pswPM_pswWithFlags (p : Word) (f : Flags) : pswPM (pswWithFlags p f) = pswPM p :=
  pswWithFlags_extract p f 12 2 (by decide)

@[simp] theorem pswIPL_pswWithFlags (p : Word) (f : Flags) : pswIPL (pswWithFlags p f) = pswIPL p :=
  pswWithFlags_extract p f 5 3 (by decide)

@[simp] theorem pswT_pswWithFlags (p : Word) (f : Flags) : pswT (pswWithFlags p f) = pswT p := by
  simp only [pswT, getLsbD_pswWithFlags]; rfl

/-- The condition codes read back as they were assigned. -/
@[simp] theorem pswFlags_pswWithFlags (p : Word) (f : Flags) : pswFlags (pswWithFlags p f) = f := by
  simp only [pswFlags, getLsbD_pswWithFlags, getLsbD_flagWord]; rfl

/-- Assigning the codes a PSW already has changes nothing. -/
@[simp] theorem pswWithFlags_pswFlags (p : Word) : pswWithFlags p (pswFlags p) = p := by
  apply BitVec.eq_of_getLsbD_eq
  intro i hi
  rw [getLsbD_pswWithFlags, getLsbD_flagWord]
  interval_cases i <;> simp [pswFlags]

/-- A second assignment of the condition codes replaces the first. -/
@[simp] theorem pswWithFlags_pswWithFlags (p : Word) (f g : Flags) :
    pswWithFlags (pswWithFlags p f) g = pswWithFlags p g := by
  apply BitVec.eq_of_getLsbD_eq
  intro i _
  simp only [getLsbD_pswWithFlags]
  split <;> rfl

/-- Reading the PSW after an assignment of the codes. -/
@[simp] theorem pswRead_pswWithFlags (p : Word) (f : Flags) : pswRead (pswWithFlags p f) = pswWithFlags (pswRead p) f := by
  apply BitVec.eq_of_getLsbD_eq
  intro i hi
  simp only [pswRead, BitVec.getLsbD_and, getLsbD_pswWithFlags, getLsbD_flagWord]
  interval_cases i <;> simp

/-! ## Modes and registers after updates -/

@[simp] theorem setReg_mode (s : State) (r : Reg) (v : Word) : (s.setReg r v).mode = s.mode := by
  simp [State.mode]

@[simp] theorem setReg_prevMode (s : State) (r : Reg) (v : Word) : (s.setReg r v).prevMode = s.prevMode := by
  simp [State.prevMode]

@[simp] theorem setFlags_mode (s : State) (f : Flags) : (s.setFlags f).mode = s.mode := by
  simp [State.mode]

@[simp] theorem setFlags_prevMode (s : State) (f : Flags) : (s.setFlags f).prevMode = s.prevMode := by
  simp [State.prevMode]

@[simp] theorem setFlags_flags (s : State) (f : Flags) : (s.setFlags f).flags = f := by
  simp [State.flags]

@[simp] theorem setReg_flags (s : State) (r : Reg) (v : Word) : (s.setReg r v).flags = s.flags := by
  simp [State.flags]

@[simp] theorem setFlags_reg (s : State) (f : Flags) (r : Reg) : (s.setFlags f).reg r = s.reg r := by
  cases r <;> simp [State.reg]
  cases s.mode <;> rfl

/-- A register reads as it was written (00 R15). -/
@[simp] theorem setReg_reg_same (s : State) (r : Reg) (v : Word) : (s.setReg r v).reg r = v := by
  cases r <;> simp [State.reg]
  simp only [State.setReg]
  cases s.mode <;> rfl

/-- Writing a register leaves the others alone (10 R21). -/
theorem setReg_reg_of_ne (s : State) {r q : Reg} (v : Word) (h : q ≠ r) : (s.setReg r v).reg q = s.reg q := by
  by_cases hq : q = .sp
  · subst hq
    simp only [State.reg, setReg_mode]
    cases r <;> first | rfl | exact absurd rfl h
  · by_cases hr : r = .sp
    · subst hr
      cases q <;> first | exact absurd rfl hq | (simp only [State.reg, State.setReg]; simp)
    · cases r <;> cases q <;> first | rfl | exact absurd rfl h | exact absurd rfl hq | exact absurd rfl hr

end Sys2Proof.Machine
end

