-- ==== Sys2Proof/Laws/Actions.lean ====
section
/-! SUPPORT. How a piece of pseudocode runs on a state: sequencing, and the primitive actions. -/

namespace Sys2Proof.Machine

/-! ## Sequencing -/

theorem bind_apply {α β : Type} (x : Action α) (f : α → Action β) (s : State) :
    (x >>= f) s = match x s with
      | .ok a s' => f a s'
      | .error e s' => .error e s' := by
  change EStateM.bind x f s = _
  unfold EStateM.bind
  cases x s <;> rfl

@[simp] theorem pure_apply {α : Type} (a : α) (s : State) : (pure a : Action α) s = .ok a s := rfl

@[simp] theorem raise_apply {α : Type} (e : Exn) (s : State) : (raise e : Action α) s = .error (.raised e) s := rfl

@[simp] theorem refuse_apply {α : Type} (r : Refusal) (s : State) : (refuse r : Action α) s = .error (.refusal r) s := rfl

@[simp] theorem get_apply (s : State) : (get : Action State) s = .ok s s := rfl

@[simp] theorem set_apply (t s : State) : (set t : Action PUnit) s = .ok ⟨⟩ t := rfl

@[simp] theorem modify_apply (f : State → State) (s : State) : (modify f : Action PUnit) s = .ok ⟨⟩ (f s) := rfl

/-- The first part succeeds: the second runs on what it leaves. -/
theorem bind_of_ok {α β : Type} {x : Action α} {f : α → Action β} {s s' : State} {a : α} (h : x s = .ok a s') :
    (x >>= f) s = f a s' := by rw [bind_apply, h]

/-- The first part stops: the whole stops there. -/
theorem bind_of_error {α β : Type} {x : Action α} {f : α → Action β} {s s' : State} {e : Abort} (h : x s = .error e s') :
    (x >>= f) s = .error e s' := by rw [bind_apply, h]

/-- A sequence that succeeds went through both parts. -/
theorem bind_eq_ok {α β : Type} {x : Action α} {f : α → Action β} {s t : State} {b : β} :
    (x >>= f) s = .ok b t ↔ ∃ a s', x s = .ok a s' ∧ f a s' = .ok b t := by
  rw [bind_apply]
  cases h : x s <;> simp

/-- A sequence that stops stopped in one of its parts. -/
theorem bind_eq_error {α β : Type} {x : Action α} {f : α → Action β} {s t : State} {e : Abort} :
    (x >>= f) s = .error e t ↔ x s = .error e t ∨ ∃ a s', x s = .ok a s' ∧ f a s' = .error e t := by
  rw [bind_apply]
  cases h : x s <;> simp

/-! ## Primitive actions -/

@[simp] theorem drawWord_apply (s : State) :
    drawWord s = .ok (Config.freeWord s.draws) { s with draws := s.draws + 1 } := rfl

@[simp] theorem drawByte_apply (s : State) :
    drawByte s = .ok (Config.freeByte s.draws) { s with draws := s.draws + 1 } := rfl

@[simp] theorem drawBit_apply (s : State) :
    drawBit s = .ok (Config.freeBit s.draws) { s with draws := s.draws + 1 } := rfl

@[simp] theorem readReg_apply (r : Reg) (s : State) : readReg r s = .ok (s.reg r) s := rfl

@[simp] theorem writeReg_apply (r : Reg) (v : Word) (s : State) : writeReg r v s = .ok () (s.setReg r v) := rfl

@[simp] theorem currentMode_apply (s : State) : currentMode s = .ok s.mode s := rfl

@[simp] theorem previousMode_apply (s : State) : previousMode s = .ok s.prevMode s := rfl

@[simp] theorem readFlags_apply (s : State) : readFlags s = .ok s.flags s := rfl

@[simp] theorem writeFlags_apply (f : Flags) (s : State) : writeFlags f s = .ok () (s.setFlags f) := rfl

@[simp] theorem readMmuEnabled_apply (s : State) : readMmuEnabled s = .ok (mmuEnabled s.mmr0) s := rfl

@[simp] theorem readByteRegDest_apply (s : State) : readByteRegDest s = .ok s.cfg.byteRegDest s := rfl

@[simp] theorem assignFlags_apply (hit : Bool) (f : Flags) (s : State) :
    assignFlags hit f s = .ok () (if hit then s else s.setFlags f) := by cases hit <;> rfl

@[simp] theorem setRun_apply (r : RunState) (s : State) : setRun r s = .ok () { s with run := r } := rfl

@[simp] theorem inhibitTrace_apply (s : State) : inhibitTrace s = .ok () { s with traceInhibit := true } := rfl

/-! ## Running an instruction -/

/-- Pseudocode that runs to its end: the next state is the one it leaves (60 R266). -/
theorem runInstr_of_ok {body : Action Unit} {s t : State} (h : body s = .ok () t) : runInstr body s = .next t := by
  simp [runInstr, h]

/-- Pseudocode that raises an exception: its trap is taken with the state as it stands (60 R243). -/
theorem runInstr_of_raised {body : Action Unit} {s t : State} {e : Exn} (h : body s = .error (.raised e) t) :
    runInstr body s = takeTrap e t := by
  simp [runInstr, h]

theorem runInstr_of_refusal {body : Action Unit} {s t : State} {r : Refusal} (h : body s = .error (.refusal r) t) :
    runInstr body s = .refused r := by
  simp [runInstr, h]

/-- A next state that is no trap's comes from pseudocode that ran to its end (60 R266, log 11). -/
theorem runInstr_next_cases {body : Action Unit} {s t : State} (h : runInstr body s = .next t) :
    body s = .ok () t ∨ ∃ e u, body s = .error (.raised e) u ∧ takeTrap e u = .next t := by
  unfold runInstr at h
  split at h
  · rename_i heq
    cases h
    exact .inl heq
  · rename_i e u heq
    exact .inr ⟨e, u, heq, h⟩
  · cases h

/-- The next state of a trap is marked as one (60 R266, log 11). -/
theorem takeTrap_marks {e : Exn} {s t : State} (h : takeTrap e s = .next t) : t.trapTaken = true := by
  unfold takeTrap markTrap at h
  split at h <;> cases h
  rfl

end Sys2Proof.Machine
end

