-- ==== Sys2Proof/Laws/Decode.lean ====
section
/-! SUPPORT. Fields of an instruction word: what a row of the opcode table sees of them (30 R101, R121). -/

namespace Sys2Proof

/-! ## Bytes and words -/

@[simp] theorem getLsbD_wordOf (h l : Byte) (i : Nat) :
    (wordOf h l).getLsbD i = if i < 8 then l.getLsbD i else h.getLsbD (i - 8) := by
  rw [wordOf, BitVec.getLsbD_or, BitVec.getLsbD_shiftLeft, BitVec.getLsbD_setWidth, BitVec.getLsbD_setWidth]
  by_cases h1 : i < 8
  · simp [h1, show i < 16 by omega]
  · by_cases h2 : i < 16
    · simp [h1, h2, BitVec.getLsbD_of_ge l i (by omega), show i - 8 < 16 by omega]
    · simp [h1, h2, BitVec.getLsbD_of_ge h (i - 8) (by omega)]

/-- The low byte of a word that was put together (20 R54). -/
@[simp] theorem lowByte_wordOf (h l : Byte) : lowByte (wordOf h l) = l := by
  apply BitVec.eq_of_getLsbD_eq
  intro i hi
  simp only [lowByte, BitVec.getLsbD_extractLsb', getLsbD_wordOf, hi, Nat.zero_add, if_true, decide_true, Bool.true_and]

/-- The high byte of a word that was put together (20 R54). -/
@[simp] theorem highByte_wordOf (h l : Byte) : highByte (wordOf h l) = h := by
  apply BitVec.eq_of_getLsbD_eq
  intro i hi
  simp only [highByte, BitVec.getLsbD_extractLsb', getLsbD_wordOf, hi, decide_true, Bool.true_and,
    if_neg (show ¬ 8 + i < 8 by omega), Nat.add_sub_cancel_left]

/-- A word is put together from its own bytes (20 R54). -/
@[simp] theorem wordOf_bytes (w : Word) : wordOf (highByte w) (lowByte w) = w := by
  apply BitVec.eq_of_getLsbD_eq
  intro i hi
  simp only [getLsbD_wordOf, highByte, lowByte, BitVec.getLsbD_extractLsb']
  by_cases h1 : i < 8
  · simp only [h1, if_true, decide_true, Bool.true_and, Nat.zero_add]
  · simp only [h1, if_false, show i - 8 < 8 by omega, decide_true, Bool.true_and, Nat.add_sub_cancel' (Nat.le_of_not_lt h1)]

/-! ## Registers, modes, operands -/

@[simp] theorem Reg.ofBits_bits (r : Reg) : Reg.ofBits r.bits = r := by cases r <;> rfl

@[simp] theorem Reg.bits_ofBits (b : BitVec 3) : (Reg.ofBits b).bits = b := by revert b; decide

@[simp] theorem AddrMode.ofBits_bits (m : AddrMode) : AddrMode.ofBits m.bits = m := by cases m <;> rfl

@[simp] theorem AddrMode.bits_ofBits (b : BitVec 3) : (AddrMode.ofBits b).bits = b := by revert b; decide

@[simp] theorem Operand.ofBits_bits (o : Operand) : Operand.ofBits o.bits = o := by
  rcases o with ⟨m, r⟩
  cases m <;> cases r <;> rfl

@[simp] theorem Operand.bits_ofBits (b : BitVec 6) : (Operand.ofBits b).bits = b := by revert b; decide

/-! ## Fields -/

theorem getLsbD_field {n : Nat} (x : BitVec n) (lo i : Nat) :
    (field x lo).getLsbD i = (decide (i < 16) && decide (lo ≤ i) && x.getLsbD (i - lo)) := by
  rw [field, BitVec.getLsbD_shiftLeft, BitVec.getLsbD_setWidth]
  by_cases h1 : i < 16
  · by_cases h2 : lo ≤ i
    · simp [h1, h2, show i - lo < 16 by omega, show ¬ i < lo by omega]
    · simp [h2, show i < lo by omega]
  · simp [h1]

/-- A bit of a field is a bit of the field's span. -/
theorem field_span {n : Nat} (x : BitVec n) (lo i : Nat) (h : (field x lo).getLsbD i = true) :
    (field (BitVec.allOnes n) lo).getLsbD i = true := by
  rw [getLsbD_field] at h ⊢
  simp only [Bool.and_eq_true, decide_eq_true_eq] at h ⊢
  refine ⟨h.1, ?_⟩
  rw [BitVec.getLsbD_allOnes]
  exact decide_eq_true (Nat.lt_of_not_le fun hle => by simp [BitVec.getLsbD_of_ge x _ hle] at h)

/-- A mask that has no bit in a field's span takes the field out. -/
theorem field_and_mask {n : Nat} (x : BitVec n) (lo : Nat) (m : Word)
    (h : field (BitVec.allOnes n) lo &&& m = 0) : field x lo &&& m = 0 := by
  apply BitVec.eq_of_getLsbD_eq
  intro i _
  have hi := congrArg (·.getLsbD i) h
  simp only [BitVec.getLsbD_and] at hi ⊢
  by_cases hx : (field x lo).getLsbD i = true
  · rwa [field_span x lo i hx, ← hx] at hi
  · simp [hx]

/-- A row reads its pattern with one field filled in. -/
theorem reads_field {n : Nat} (m c : Word) (b : Word → Instr) (x : BitVec n) {lo : Nat} (hc : c &&& m = c)
    (hx : field (BitVec.allOnes n) lo &&& m = 0) : (OpRow.mk m c b).reads (c ||| field x lo) = true := by
  rw [OpRow.reads, BitVec.and_comm, BitVec.and_or_distrib_left, BitVec.and_comm m c, BitVec.and_comm m, hc,
    field_and_mask x lo m hx]
  simp

/-- A row reads its pattern with two fields filled in. -/
theorem reads_fields {n k : Nat} (m c : Word) (b : Word → Instr) (x : BitVec n) (y : BitVec k) (hi : Nat) {lo : Nat}
    (hc : c &&& m = c) (hx : field (BitVec.allOnes n) hi &&& m = 0) (hy : field (BitVec.allOnes k) lo &&& m = 0) :
    (OpRow.mk m c b).reads (c ||| field x hi ||| field y lo) = true := by
  rw [OpRow.reads, BitVec.and_comm, BitVec.and_or_distrib_left, BitVec.and_or_distrib_left, BitVec.and_comm m c,
    BitVec.and_comm m, BitVec.and_comm m, hc, field_and_mask x hi m hx, field_and_mask y lo m hy]
  simp

/-- The lowest field reads back as it was filled in. -/
theorem extract_field {n : Nat} (c : Word) (x : BitVec n) (lo : Nat) (h : lo + n ≤ 16)
    (hc : field (BitVec.allOnes n) lo &&& c = 0) : (c ||| field x lo).extractLsb' lo n = x := by
  apply BitVec.eq_of_getLsbD_eq
  intro i hi
  have hb := congrArg (·.getLsbD (lo + i)) hc
  simp only [BitVec.getLsbD_and, getLsbD_field] at hb
  simp only [BitVec.getLsbD_extractLsb', BitVec.getLsbD_or, getLsbD_field, BitVec.getLsbD_allOnes] at hb ⊢
  simp [hi, show lo + i < 16 by omega] at hb ⊢
  simp [hb]

theorem extract_low {n k : Nat} (c : Word) (x : BitVec n) (y : BitVec k) (hi lo : Nat) (h : lo + k ≤ 16)
    (hc : field (BitVec.allOnes k) lo &&& c = 0) (hx : field (BitVec.allOnes n) hi &&& field (BitVec.allOnes k) lo = 0) :
    (c ||| field x hi ||| field y lo).extractLsb' lo k = y := by
  refine extract_field _ y lo h ?_
  rw [BitVec.and_or_distrib_left, hc, BitVec.and_comm, field_and_mask x hi _ hx]
  simp

theorem extract_high {n k : Nat} (c : Word) (x : BitVec n) (y : BitVec k) (hi lo : Nat) (h : hi + n ≤ 16)
    (hc : field (BitVec.allOnes n) hi &&& c = 0) (hx : field (BitVec.allOnes k) lo &&& field (BitVec.allOnes n) hi = 0) :
    (c ||| field x hi ||| field y lo).extractLsb' hi n = x := by
  rw [BitVec.or_assoc, BitVec.or_comm (field x hi), ← BitVec.or_assoc]
  exact extract_low c y x lo hi h hc hx

theorem regAt_field (c : Word) (r : Reg) (lo : Nat) (h : lo + 3 ≤ 16) (hc : field (BitVec.allOnes 3) lo &&& c = 0) :
    regAt (c ||| field r.bits lo) lo = r := by
  rw [regAt, extract_field c _ lo h hc, Reg.ofBits_bits]

theorem operandAt_field (c : Word) (o : Operand) (lo : Nat) (h : lo + 6 ≤ 16) (hc : field (BitVec.allOnes 6) lo &&& c = 0) :
    operandAt (c ||| field o.bits lo) lo = o := by
  rw [operandAt, extract_field c _ lo h hc, Operand.ofBits_bits]

theorem regAt_low {n : Nat} (c : Word) (x : BitVec n) (r : Reg) (hi lo : Nat) (h : lo + 3 ≤ 16)
    (hc : field (BitVec.allOnes 3) lo &&& c = 0) (hx : field (BitVec.allOnes n) hi &&& field (BitVec.allOnes 3) lo = 0) :
    regAt (c ||| field x hi ||| field r.bits lo) lo = r := by
  rw [regAt, extract_low c x _ hi lo h hc hx, Reg.ofBits_bits]

theorem operandAt_low {n : Nat} (c : Word) (x : BitVec n) (o : Operand) (hi lo : Nat) (h : lo + 6 ≤ 16)
    (hc : field (BitVec.allOnes 6) lo &&& c = 0) (hx : field (BitVec.allOnes n) hi &&& field (BitVec.allOnes 6) lo = 0) :
    operandAt (c ||| field x hi ||| field o.bits lo) lo = o := by
  rw [operandAt, extract_low c x _ hi lo h hc hx, Operand.ofBits_bits]

theorem regAt_high {k : Nat} (c : Word) (r : Reg) (y : BitVec k) (hi lo : Nat) (h : hi + 3 ≤ 16)
    (hc : field (BitVec.allOnes 3) hi &&& c = 0) (hx : field (BitVec.allOnes k) lo &&& field (BitVec.allOnes 3) hi = 0) :
    regAt (c ||| field r.bits hi ||| field y lo) hi = r := by
  rw [regAt, extract_high c _ y hi lo h hc hx, Reg.ofBits_bits]

theorem operandAt_high {k : Nat} (c : Word) (o : Operand) (y : BitVec k) (hi lo : Nat) (h : hi + 6 ≤ 16)
    (hc : field (BitVec.allOnes 6) hi &&& c = 0) (hx : field (BitVec.allOnes k) lo &&& field (BitVec.allOnes 6) hi = 0) :
    operandAt (c ||| field o.bits hi ||| field y lo) hi = o := by
  rw [operandAt, extract_high c _ y hi lo h hc hx, Operand.ofBits_bits]

/-! ## First match -/

/-- A word that some row reads is decoded: by the first row that reads it (30 R121). -/
theorem decodeWord_of_first (w : Word) (k : Nat) (row : OpRow) (hk : opRows[k]? = some row) (hr : row.reads w = true)
    (hfirst : ∀ j row', j < k → opRows[j]? = some row' → row'.reads w = false) : decodeWord w = some (row.build w) := by
  have : opRows.find? (·.reads w) = some row := by
    rw [List.find?_eq_some_iff_getElem]
    obtain ⟨hlt, hrow⟩ := List.getElem?_eq_some_iff.mp hk
    refine ⟨hr, k, hlt, hrow, fun j hj => ?_⟩
    simpa using hfirst j _ hj (List.getElem?_eq_getElem (by omega))
  simp [decodeWord, this]

end Sys2Proof
end

