-- ==== Sys2Proof/Laws/Memory.lean ====
section
/-! SUPPORT. Physical memory: a write is read back, leaves every other byte alone, and keeps the canonical form (10 R41). -/

namespace Sys2Proof.Machine

/-! ## Look-up after a write -/

@[simp] theorem memLookup_memInsert_same (m : Memory) (a : Nat) (v : Byte) : memLookup (memInsert m a v) a = some v := by
  induction m with
  | nil => simp [memInsert, memLookup]
  | cons c rest ih =>
    rcases c with ⟨k, b⟩
    simp only [memInsert]
    split
    · simp [memLookup]
    · split
      · simp [memLookup]
      · rename_i h
        simp [memLookup, h, ih]

theorem memLookup_memInsert_of_ne (m : Memory) {a x : Nat} (v : Byte) (h : x ≠ a) :
    memLookup (memInsert m a v) x = memLookup m x := by
  induction m with
  | nil => simp [memInsert, memLookup, h]
  | cons c rest ih =>
    rcases c with ⟨k, b⟩
    simp only [memInsert]
    split
    · simp [memLookup, h]
    · split
      · rename_i hk
        subst hk
        simp [memLookup, h]
      · simp only [memLookup, ih]

/-- A byte reads as it was written (20 R85). -/
@[simp] theorem memByte_memInsert_same (m : Memory) (a : Nat) (v : Byte) : memByte (memInsert m a v) a = v := by
  simp [memByte]

/-- A write of a byte leaves the other bytes alone. -/
theorem memByte_memInsert_of_ne (m : Memory) {a x : Nat} (v : Byte) (h : x ≠ a) :
    memByte (memInsert m a v) x = memByte m x := by
  rw [memByte, memLookup_memInsert_of_ne m v h, memByte]

@[simp] theorem byteAt_putByte_same (s : State) (a : Nat) (v : Byte) : (s.putByte a v).byteAt a = v := by
  simp [State.byteAt]

theorem byteAt_putByte_of_ne (s : State) {a x : Nat} (v : Byte) (h : x ≠ a) : (s.putByte a v).byteAt x = s.byteAt x := by
  simp [State.byteAt, memByte_memInsert_of_ne s.mem v h]

/-- A word reads as it was written (20 R54). -/
@[simp] theorem wordAt_putWord_same (s : State) (a : Nat) (v : Word) : (s.putWord a v).wordAt a = v := by
  rw [State.wordAt, State.putWord, byteAt_putByte_same, byteAt_putByte_of_ne _ _ (by omega), byteAt_putByte_same, wordOf_bytes]

/-- A write of a word leaves the bytes outside it alone (20 R54). -/
theorem byteAt_putWord_of_ne (s : State) {a x : Nat} (v : Word) (h : x ≠ a) (h' : x ≠ a + 1) :
    (s.putWord a v).byteAt x = s.byteAt x := by
  rw [State.putWord, byteAt_putByte_of_ne _ _ h', byteAt_putByte_of_ne _ _ h]

/-- The two bytes of a word that was written, low byte at the lower address (20 R54). -/
theorem byteAt_putWord_low (s : State) (a : Nat) (v : Word) : (s.putWord a v).byteAt a = lowByte v := by
  rw [State.putWord, byteAt_putByte_of_ne _ _ (by omega), byteAt_putByte_same]

theorem byteAt_putWord_high (s : State) (a : Nat) (v : Word) : (s.putWord a v).byteAt (a + 1) = highByte v := by
  rw [State.putWord, byteAt_putByte_same]

/-! ## The canonical form -/

theorem memAbove_memInsert {k a : Nat} (m : Memory) (v : Byte) (hm : memAbove k m = true) (h : k < a) :
    memAbove k (memInsert m a v) = true := by
  induction m with
  | nil => simp [memInsert, memAbove, h]
  | cons c rest ih =>
    rcases c with ⟨j, b⟩
    simp only [memAbove, Bool.and_eq_true, decide_eq_true_eq] at hm
    simp only [memInsert]
    split
    · simp [memAbove, h, hm.1, hm.2]
    · split
      · simp [memAbove, h, hm.2]
      · simp [memAbove, hm.1, ih hm.2]

theorem memAbove_trans {j k : Nat} (m : Memory) (hm : memAbove k m = true) (h : j ≤ k) : memAbove j m = true := by
  induction m with
  | nil => rfl
  | cons c rest ih =>
    rcases c with ⟨i, b⟩
    simp only [memAbove, Bool.and_eq_true, decide_eq_true_eq] at hm ⊢
    exact ⟨by omega, ih hm.2⟩

/-- A write keeps the canonical form. -/
theorem wf_memInsert (m : Memory) (a : Nat) (v : Byte) (h : Memory.wf m = true) : Memory.wf (memInsert m a v) = true := by
  induction m with
  | nil => rfl
  | cons c rest ih =>
    rcases c with ⟨k, b⟩
    simp only [Memory.wf, Bool.and_eq_true] at h
    simp only [memInsert]
    split
    · rename_i hlt
      simp [Memory.wf, memAbove, hlt, h.1, h.2, memAbove_trans rest h.1 (Nat.le_of_lt hlt)]
    · split
      · rename_i hk
        subst hk
        simp [Memory.wf, h.1, h.2]
      · have : k < a := by omega
        simp [Memory.wf, ih h.2, memAbove_memInsert rest v h.1 this]

/-- A write below a bound keeps the memory below it (20 R53). -/
theorem memBelow_memInsert {top a : Nat} (m : Memory) (v : Byte) (h : memBelow top m = true) (ha : a < top) :
    memBelow top (memInsert m a v) = true := by
  induction m with
  | nil => simp [memInsert, memBelow, ha]
  | cons c rest ih =>
    rcases c with ⟨k, b⟩
    simp only [memBelow, Bool.and_eq_true, decide_eq_true_eq] at h
    simp only [memInsert]
    split
    · simp [memBelow, ha, h.1, h.2]
    · split
      · simp [memBelow, ha, h.2]
      · simp [memBelow, h.1, ih h.2]

/-- The memory after reset is in the canonical form (10 R41). -/
theorem wf_reset : Memory.wf State.reset.mem = true := rfl

/-! ## Equal contents, equal lists -/

theorem memLookup_eq_none_of_above {a : Nat} (m : Memory) (h : memAbove a m = true) : memLookup m a = none := by
  induction m with
  | nil => rfl
  | cons c rest ih =>
    rcases c with ⟨k, b⟩
    simp only [memAbove, Bool.and_eq_true, decide_eq_true_eq] at h
    simp [memLookup, show a ≠ k by omega, ih h.2]

/-- Two memories in the canonical form that have the same bytes written are the same list. -/
theorem eq_of_memLookup_eq (m n : Memory) (hm : Memory.wf m = true) (hn : Memory.wf n = true)
    (h : ∀ a, memLookup m a = memLookup n a) : m = n := by
  induction m generalizing n with
  | nil =>
    cases n with
    | nil => rfl
    | cons c rest =>
      have := h c.1
      simp [memLookup] at this
  | cons c rest ih =>
    rcases c with ⟨k, b⟩
    simp only [Memory.wf, Bool.and_eq_true] at hm
    cases n with
    | nil =>
      have := h k
      simp [memLookup] at this
    | cons d rest' =>
      rcases d with ⟨j, e⟩
      simp only [Memory.wf, Bool.and_eq_true] at hn
      have hkj : k = j := by
        rcases Nat.lt_trichotomy k j with hlt | heq | hgt
        · have h1 := h k
          rw [memLookup, if_pos rfl, memLookup, if_neg (by omega),
            memLookup_eq_none_of_above rest' (memAbove_trans rest' hn.1 (by omega))] at h1
          cases h1
        · exact heq
        · have h1 := h j
          rw [memLookup, if_neg (by omega), memLookup, if_pos rfl,
            memLookup_eq_none_of_above rest (memAbove_trans rest hm.1 (by omega))] at h1
          cases h1
      subst hkj
      have hbe : b = e := by
        have h1 := h k
        simpa [memLookup] using h1
      subst hbe
      have : rest = rest' := by
        refine ih rest' hm.2 hn.2 fun a => ?_
        have h1 := h a
        by_cases hak : a = k
        · subst hak
          rw [memLookup_eq_none_of_above rest hm.1, memLookup_eq_none_of_above rest' hn.1]
        · simpa [memLookup, hak] using h1
      rw [this]

end Sys2Proof.Machine
end

