-- ==== Sys2Proof/Laws/Bits.lean ====
section
/-! SUPPORT. Bits of the PSW, MMR0 and the paging registers after the updates of this hardware; parity of physical addresses. -/

namespace Sys2Proof.Machine

/-! ## The PSW -/

theorem pswRead_idem (p : Word) : pswRead (pswRead p) = pswRead p := by
  simp only [pswRead, BitVec.and_assoc, BitVec.and_self]

theorem pswRead_extract (p : Word) (lo len : Nat) (h : ∀ i < len, (0o170377#16).getLsbD (lo + i) = true) :
    (pswRead p).extractLsb' lo len = p.extractLsb' lo len := by
  apply BitVec.eq_of_getLsbD_eq
  intro i hi
  simp only [pswRead, BitVec.getLsbD_extractLsb', BitVec.getLsbD_and, h i hi, Bool.and_true]

@[simp] theorem pswCM_pswRead (p : Word) : pswCM (pswRead p) = pswCM p := pswRead_extract p 14 2 (by decide)

@[simp] theorem pswPM_pswRead (p : Word) : pswPM (pswRead p) = pswPM p := pswRead_extract p 12 2 (by decide)

@[simp] theorem pswIPL_pswRead (p : Word) : pswIPL (pswRead p) = pswIPL p := pswRead_extract p 5 3 (by decide)

@[simp] theorem pswWritable_pswRead (p : Word) : pswWritable (pswRead p) = pswWritable p := by
  simp only [pswWritable, pswCM_pswRead, pswPM_pswRead]

/-- After a trap the mode is kernel (60 R241). -/
@[simp] theorem pswCM_pswOfTrap (o n : Word) : pswCM (pswOfTrap o n) = 0b00 := by
  apply BitVec.eq_of_getLsbD_eq
  intro i hi
  simp only [pswCM, pswOfTrap, BitVec.getLsbD_extractLsb', BitVec.getLsbD_or, BitVec.getLsbD_and]
  interval_cases i <;> simp

/-- After a trap PM is the old CM (60 R241). -/
@[simp] theorem pswPM_pswOfTrap (o n : Word) : pswPM (pswOfTrap o n) = pswCM o := by
  apply BitVec.eq_of_getLsbD_eq
  intro i hi
  simp only [pswPM, pswCM, pswOfTrap, BitVec.getLsbD_extractLsb', BitVec.getLsbD_or, BitVec.getLsbD_and,
    BitVec.getLsbD_ushiftRight]
  interval_cases i <;> simp

@[simp] theorem pswRead_pswOfTrap (o n : Word) : pswRead (pswOfTrap o n) = pswOfTrap o n := by
  apply BitVec.eq_of_getLsbD_eq
  intro i hi
  simp only [pswRead, pswOfTrap, BitVec.getLsbD_or, BitVec.getLsbD_and]
  interval_cases i <;> simp

/-- The PSW of a trap depends on the old PSW as a read gives it (60 R241, R248). -/
@[simp] theorem pswOfTrap_pswRead (o n : Word) : pswOfTrap (pswRead o) n = pswOfTrap o n := by
  apply BitVec.eq_of_getLsbD_eq
  intro i hi
  simp only [pswRead, pswOfTrap, BitVec.getLsbD_or, BitVec.getLsbD_and, BitVec.getLsbD_ushiftRight]
  interval_cases i <;> simp

/-- A field that one mask keeps and the other takes out. -/
theorem extract_masked (p v m k : Word) (lo len : Nat) (hm : ∀ i < len, m.getLsbD (lo + i) = true)
    (hk : ∀ i < len, k.getLsbD (lo + i) = false) : ((p &&& m) ||| (v &&& k)).extractLsb' lo len = p.extractLsb' lo len := by
  apply BitVec.eq_of_getLsbD_eq
  intro i hi
  simp only [BitVec.getLsbD_extractLsb', BitVec.getLsbD_or, BitVec.getLsbD_and, hm i hi, hk i hi, Bool.and_true, Bool.and_false,
    Bool.or_false]

/-- A return in user mode leaves CM, PM and IPL alone (40 R143). -/
@[simp] theorem pswCM_pswOfUserReturn (p v : Word) : pswCM (pswOfUserReturn p v) = pswCM p :=
  extract_masked p v _ _ 14 2 (by decide) (by decide)

@[simp] theorem pswPM_pswOfUserReturn (p v : Word) : pswPM (pswOfUserReturn p v) = pswPM p :=
  extract_masked p v _ _ 12 2 (by decide) (by decide)

@[simp] theorem pswIPL_pswOfUserReturn (p v : Word) : pswIPL (pswOfUserReturn p v) = pswIPL p :=
  extract_masked p v _ _ 5 3 (by decide) (by decide)

theorem pswRead_pswOfUserReturn (p v : Word) : pswRead (pswOfUserReturn p v) = pswOfUserReturn (pswRead p) v := by
  apply BitVec.eq_of_getLsbD_eq
  intro i hi
  simp only [pswRead, pswOfUserReturn, BitVec.getLsbD_or, BitVec.getLsbD_and]
  interval_cases i <;> simp

/-! ## MMR0 and the paging registers -/

/-- The bits that hold nothing in MMR0 stay clear when a fault is recorded (20 R78, R83). -/
theorem mmr0OfFault_masked (m : Word) (mode : Mode) (page reasons : BitVec 3) (h : m &&& mmr0Mask = m) :
    mmr0OfFault m mode page reasons &&& mmr0Mask = mmr0OfFault m mode page reasons := by
  have hr : reasons.setWidth 16 <<< 10 &&& mmr0Mask = reasons.setWidth 16 <<< 10 := by revert reasons; decide
  have hm : (modeBits mode).setWidth 16 <<< 5 &&& mmr0Mask = (modeBits mode).setWidth 16 <<< 5 := by cases mode <;> decide
  have hp : page.setWidth 16 <<< 1 &&& mmr0Mask = page.setWidth 16 <<< 1 := by revert page; decide
  have hk : (m &&& 0o177621#16) &&& mmr0Mask = m &&& 0o177621#16 := by
    rw [BitVec.and_assoc, BitVec.and_comm _ mmr0Mask, ← BitVec.and_assoc, h]
  unfold mmr0OfFault
  rw [BitVec.and_comm, BitVec.and_or_distrib_left, BitVec.and_or_distrib_left, BitVec.and_or_distrib_left]
  rw [BitVec.and_comm mmr0Mask, BitVec.and_comm mmr0Mask, BitVec.and_comm mmr0Mask, BitVec.and_comm mmr0Mask, hk, hr, hm, hp]

/-- Recording a fault leaves the enable bit alone (20 R83). -/
@[simp] theorem mmuEnabled_mmr0OfFault (m : Word) (mode : Mode) (page reasons : BitVec 3) :
    mmuEnabled (mmr0OfFault m mode page reasons) = mmuEnabled m := by
  have hr : (reasons.setWidth 16 <<< 10).getLsbD 0 = false := by revert reasons; decide
  have hm : ((modeBits mode).setWidth 16 <<< 5).getLsbD 0 = false := by cases mode <;> decide
  have hp : (page.setWidth 16 <<< 1).getLsbD 0 = false := by revert page; decide
  simp only [mmuEnabled, mmr0OfFault, BitVec.getLsbD_or, BitVec.getLsbD_and, hr, hm, hp, Bool.or_false]
  simp

/-- Bit C is one that a PDR holds (20 R72). -/
theorem pdrSetC_masked (d : Word) (h : d &&& pdrMask = d) : pdrSetC d &&& pdrMask = pdrSetC d := by
  rw [pdrSetC, BitVec.and_comm, BitVec.and_or_distrib_left, BitVec.and_comm, h]
  rfl

@[simp] theorem pdrSetC_idem (d : Word) : pdrSetC (pdrSetC d) = pdrSetC d := by
  simp only [pdrSetC, BitVec.or_assoc, BitVec.or_self]

theorem getLsbD_pdrSetC (d : Word) (i : Nat) (h : i ≠ 6) : (pdrSetC d).getLsbD i = d.getLsbD i := by
  rw [pdrSetC, BitVec.getLsbD_or]
  by_cases hi : i < 16
  · interval_cases i <;> first | exact absurd rfl h | simp
  · rw [BitVec.getLsbD_of_ge _ _ (by omega), BitVec.getLsbD_of_ge _ _ (by omega), Bool.or_false]

@[simp] theorem pdrS_pdrSetC (d : Word) : pdrS (pdrSetC d) = pdrS d := by
  apply BitVec.eq_of_getLsbD_eq
  intro i hi
  simp only [pdrS, BitVec.getLsbD_extractLsb', getLsbD_pdrSetC d (8 + i) (by omega)]

@[simp] theorem pdrU_pdrSetC (d : Word) : pdrU (pdrSetC d) = pdrU d := getLsbD_pdrSetC d 3 (by decide)

@[simp] theorem pdrW_pdrSetC (d : Word) : pdrW (pdrSetC d) = pdrW d := getLsbD_pdrSetC d 2 (by decide)

@[simp] theorem pdrR_pdrSetC (d : Word) : pdrR (pdrSetC d) = pdrR d := getLsbD_pdrSetC d 1 (by decide)

@[simp] theorem pdrBound_pdrSetC (d : Word) : pdrBound (pdrSetC d) = pdrBound d := by simp [pdrBound]

@[simp] theorem offsetValid_pdrSetC (b : MmuBounds) (d : Word) (off : BitVec 13) :
    offsetValid b (pdrSetC d) off = offsetValid b d off := by simp [offsetValid]

/-- Bit C has no part in what the MMU allows (20 R74, R76). -/
@[simp] theorem mmuReasons_pdrSetC (b : MmuBounds) (d : Word) (off : BitVec 13) (k : Access) :
    mmuReasons b (pdrSetC d) off k = mmuReasons b d off k := by simp [mmuReasons]

/-- Bit C has no part in where the MMU maps an address (20 R74, R76). -/
@[simp] theorem mmuMap_pdrSetC (b : MmuBounds) (par d : Word) (off : BitVec 13) :
    mmuMap b par (pdrSetC d) off = mmuMap b par d off := by simp [mmuMap]

/-! ## Paging registers after updates -/

theorem setPdr_pdr (s : State) (m m' : Mode) (p p' : BitVec 3) (v : Word) :
    (s.setPdr m p v).pdr m' p' = if m' = m ∧ p' = p then v else s.pdr m' p' := by
  cases m <;> cases m' <;> simp [State.setPdr, State.pdr, Vector.get_eq_getElem, Vector.getElem_set, BitVec.toNat_eq, eq_comm]

theorem setPar_par (s : State) (m m' : Mode) (p p' : BitVec 3) (v : Word) :
    (s.setPar m p v).par m' p' = if m' = m ∧ p' = p then v else s.par m' p' := by
  cases m <;> cases m' <;> simp [State.setPar, State.par, Vector.get_eq_getElem, Vector.getElem_set, BitVec.toNat_eq, eq_comm]

@[simp] theorem setPdr_par (s : State) (m m' : Mode) (p p' : BitVec 3) (v : Word) : (s.setPdr m p v).par m' p' = s.par m' p' := by
  simp [State.par]

@[simp] theorem setPar_pdr (s : State) (m m' : Mode) (p p' : BitVec 3) (v : Word) : (s.setPar m p v).pdr m' p' = s.pdr m' p' := by
  simp [State.pdr]

/-! ## Parity of physical addresses (20 R52, R74) -/

/-- The lowest bit is the parity. -/
theorem getLsbD_zero_eq {n : Nat} (x : BitVec n) : x.getLsbD 0 = decide (x.toNat % 2 = 1) := by
  rw [BitVec.getLsbD, Nat.testBit_zero]

theorem parBase_even (par : Word) : (parBase par).toNat % 2 = 0 := by
  have h : (parBase par).getLsbD 0 = false := by
    rw [parBase, BitVec.getLsbD_shiftLeft]
    simp
  rw [getLsbD_zero_eq] at h
  have := of_decide_eq_false h
  omega

theorem pdrBound_even (pdr : Word) : (pdrBound pdr).toNat % 2 = 0 := by
  have h : (pdrBound pdr).getLsbD 0 = false := by
    rw [pdrBound, BitVec.getLsbD_shiftLeft]
    simp
  rw [getLsbD_zero_eq] at h
  have := of_decide_eq_false h
  omega

theorem mmuMap_parity (b : MmuBounds) (par pdr : Word) (off : BitVec 13) :
    (mmuMap b par pdr off).toNat % 2 = off.toNat % 2 := by
  have h1 := parBase_even par
  have h2 := pdrBound_even pdr
  have hoff := off.isLt
  have hb := (pdrBound pdr).isLt
  unfold mmuMap
  cases b <;> simp only
  · split <;> simp only [BitVec.toNat_add, BitVec.toNat_setWidth, BitVec.toNat_sub] <;> omega
  · simp only [BitVec.toNat_add, BitVec.toNat_setWidth]
    omega

theorem offsetOf_parity (va : Word) : (offsetOf va).toNat % 2 = va.toNat % 2 := by
  simp only [offsetOf, BitVec.extractLsb'_toNat]
  omega

theorem fixedMap_parity (va : Word) : (fixedMap va).toNat % 2 = va.toNat % 2 := by
  have := va.isLt
  unfold fixedMap
  split <;> simp only [BitVec.toNat_add, BitVec.toNat_setWidth, BitVec.toNat_ofNat] <;> omega

/-- A virtual and its physical address are both even or both odd (20 R52, R74). -/
theorem physAddr_parity (s : State) (mode : Mode) (va : Word) : (s.physAddr mode va).toNat % 2 = va.toNat % 2 := by
  unfold State.physAddr
  split
  · rw [mmuMap_parity, offsetOf_parity]
  · exact fixedMap_parity va

end Sys2Proof.Machine
end

