-- ==== Sys2Proof/Laws/Ops.lean ====
section
/-! SUPPORT. What each shared operation can do, said once: accesses, the stack, the trap sequence. -/

namespace Sys2Proof.Machine

/-! ## Virtual accesses -/

/-- The state a translation that is turned down leaves: the fault is recorded in MMR0 (20 R83). -/
def State.withMmuFault (s : State) (mode : Mode) (va : Word) (kind : Access) : State :=
  { s with mmr0 := mmr0OfFault s.mmr0 mode (pageOf va) (s.accessReasons mode va kind) }

/-- A translation: the physical address, or the recorded fault (20 R60, R74, R83). -/
theorem translate_apply (mode : Mode) (va : Word) (kind : Access) (s : State) :
    translate mode va kind s =
      if mmuEnabled s.mmr0 = true ∧ s.accessReasons mode va kind ≠ 0 then .error (.raised .mmuFault) (s.withMmuFault mode va kind)
      else .ok (s.physAddr mode va) s := by
  unfold translate
  by_cases h1 : mmuEnabled s.mmr0 = true
  · by_cases h2 : s.accessReasons mode va kind = 0
    · simp [h2]
    · simp [h1, State.withMmuFault]
  · simp [h1]

theorem checkEven_apply (va : Word) (s : State) :
    checkEven va s = if va.getLsbD 0 = true then .error (.raised .busError) s else .ok () s := rfl

/-- A word read (20 R56, R61): odd address, MMU fault, or the physical read. -/
theorem memReadWordIn_apply (mode : Mode) (va : Word) (s : State) :
    memReadWordIn mode va s =
      if va.getLsbD 0 = true then .error (.raised .busError) s
      else if mmuEnabled s.mmr0 = true ∧ s.accessReasons mode va .read ≠ 0 then
        .error (.raised .mmuFault) (s.withMmuFault mode va .read)
      else physReadWord (s.physAddr mode va) s := by
  rw [memReadWordIn, bind_apply, checkEven_apply]
  by_cases h1 : va.getLsbD 0 = true
  · rw [if_pos h1, if_pos h1]
  · rw [if_neg h1, if_neg h1]
    by_cases h2 : mmuEnabled s.mmr0 = true ∧ s.accessReasons mode va .read ≠ 0
    · simp only [bind_apply, translate_apply, if_pos h2]
    · simp only [bind_apply, translate_apply, if_neg h2]

/-- A byte read (20 R61): MMU fault, or the physical read. -/
theorem memReadByteIn_apply (mode : Mode) (va : Word) (s : State) :
    memReadByteIn mode va s =
      if mmuEnabled s.mmr0 = true ∧ s.accessReasons mode va .read ≠ 0 then
        .error (.raised .mmuFault) (s.withMmuFault mode va .read)
      else physReadByte (s.physAddr mode va) s := by
  rw [memReadByteIn]
  by_cases h2 : mmuEnabled s.mmr0 = true ∧ s.accessReasons mode va .read ≠ 0
  · simp only [bind_apply, translate_apply, if_pos h2]
  · simp only [bind_apply, translate_apply, if_neg h2]

/-- The state after a completed write: bit C of the page's PDR is set where the MMU was on (20 R61, R76). -/
def State.afterWrite (s : State) (translated : Bool) (mode : Mode) (va : Word) : State :=
  if translated then s.setPdr mode (pageOf va) (pdrSetC (s.pdr mode (pageOf va))) else s

@[simp] theorem markWritten_apply (translated : Bool) (mode : Mode) (va : Word) (s : State) :
    markWritten translated mode va s = .ok () (s.afterWrite translated mode va) := by
  cases translated <;> rfl

/-- A word write (20 R56, R61, R65, R76). -/
theorem memWriteWordIn_apply (mode : Mode) (va v : Word) (s : State) :
    memWriteWordIn mode va v s =
      if va.getLsbD 0 = true then .error (.raised .busError) s
      else if mmuEnabled s.mmr0 = true ∧ s.accessReasons mode va .write ≠ 0 then
        .error (.raised .mmuFault) (s.withMmuFault mode va .write)
      else match physWriteWord (s.physAddr mode va) v s with
        | .ok _ t => .ok (hitsPsw (s.physAddr mode va)) (t.afterWrite (mmuEnabled s.mmr0) mode va)
        | .error e t => .error e t := by
  rw [memWriteWordIn, bind_apply, checkEven_apply]
  by_cases h1 : va.getLsbD 0 = true
  · rw [if_pos h1, if_pos h1]
  · rw [if_neg h1, if_neg h1]
    simp only [bind_apply, translate_apply, readMmuEnabled_apply]
    by_cases h2 : mmuEnabled s.mmr0 = true ∧ s.accessReasons mode va .write ≠ 0
    · simp only [if_pos h2]
    · simp only [if_neg h2]
      cases physWriteWord (s.physAddr mode va) v s <;> simp

/-- A byte write (20 R61, R65, R76). -/
theorem memWriteByteIn_apply (mode : Mode) (va : Word) (v : Byte) (s : State) :
    memWriteByteIn mode va v s =
      if mmuEnabled s.mmr0 = true ∧ s.accessReasons mode va .write ≠ 0 then
        .error (.raised .mmuFault) (s.withMmuFault mode va .write)
      else match physWriteByte (s.physAddr mode va) v s with
        | .ok _ t => .ok (hitsPsw (s.physAddr mode va)) (t.afterWrite (mmuEnabled s.mmr0) mode va)
        | .error e t => .error e t := by
  rw [memWriteByteIn]
  simp only [bind_apply, translate_apply, readMmuEnabled_apply]
  by_cases h2 : mmuEnabled s.mmr0 = true ∧ s.accessReasons mode va .write ≠ 0
  · simp only [if_pos h2]
  · simp only [if_neg h2]
    cases physWriteByte (s.physAddr mode va) v s <;> simp

@[simp] theorem memReadWord_apply (va : Word) (s : State) : memReadWord va s = memReadWordIn s.mode va s := rfl

@[simp] theorem memReadByte_apply (va : Word) (s : State) : memReadByte va s = memReadByteIn s.mode va s := rfl

/-! ## What a read changes: nothing, but the counter of free values and the switches -/

/-- How much of the outside a piece of an instruction has read: free values drawn (log 2), settings of the switches passed (log 3). -/
structure Reads where
  values : Nat
  settings : Nat

/-- The state after so many free values have been drawn and so many settings of the switches have passed (logs 2, 3). -/
def State.drawn (s : State) (n : Reads) : State :=
  { s with
    draws := s.draws + n.values
    sr := (s.switchMoves.take n.settings).getLastD s.sr
    switchMoves := s.switchMoves.drop n.settings }

theorem drawn_none (s : State) : s.drawn ⟨0, 0⟩ = s := by simp [State.drawn]

theorem drawn_value (s : State) : s.drawn ⟨1, 0⟩ = { s with draws := s.draws + 1 } := by simp [State.drawn]

theorem operatorMoves_eq (s : State) : s.operatorMoves = s.drawn ⟨0, 1⟩ := by
  unfold State.operatorMoves State.drawn
  cases s.switchMoves <;> rfl

theorem afterIoRead_eq (s : State) (r : IoReg) : ∃ n, s.afterIoRead r = s.drawn n := by
  cases r
  case switches => exact ⟨⟨0, 1⟩, operatorMoves_eq s⟩
  all_goals exact ⟨⟨0, 0⟩, (drawn_none s).symm⟩

theorem physReadWord_ok {pa : PhysAddr} {s t : State} {v : Word} (h : physReadWord pa s = .ok v t) :
    ∃ n, t = s.drawn n := by
  unfold physReadWord at h
  split at h
  · cases h; exact ⟨⟨0, 0⟩, (drawn_none _).symm⟩
  · split at h
    · cases h; exact afterIoRead_eq s _
    · split at h
      · cases h; exact ⟨⟨1, 0⟩, (drawn_value s).symm⟩
      · cases h

theorem physReadByte_ok {pa : PhysAddr} {s t : State} {v : Byte} (h : physReadByte pa s = .ok v t) :
    ∃ n, t = s.drawn n := by
  unfold physReadByte at h
  split at h
  · cases h; exact ⟨⟨0, 0⟩, (drawn_none _).symm⟩
  · split at h
    · cases h; exact afterIoRead_eq s _
    · split at h
      · cases h; exact ⟨⟨1, 0⟩, (drawn_value s).symm⟩
      · cases h

theorem physReadWord_error {pa : PhysAddr} {s t : State} {e : Abort} (h : physReadWord pa s = .error e t) :
    e = .raised .busError ∧ t = s := by
  unfold physReadWord at h
  split at h
  · cases h
  · split at h
    · cases h
    · split at h <;> cases h
      exact ⟨rfl, rfl⟩

theorem physReadByte_error {pa : PhysAddr} {s t : State} {e : Abort} (h : physReadByte pa s = .error e t) :
    e = .raised .busError ∧ t = s := by
  unfold physReadByte at h
  split at h
  · cases h
  · split at h
    · cases h
    · split at h <;> cases h
      exact ⟨rfl, rfl⟩

/-- A word read that succeeds changes nothing, but may draw a free value from a device (20 R62) or pass a setting of the switches (R66). -/
theorem memReadWordIn_ok {mode : Mode} {va v : Word} {s t : State} (h : memReadWordIn mode va s = .ok v t) :
    ∃ n, t = s.drawn n := by
  rw [memReadWordIn_apply] at h
  split at h
  · cases h
  · split at h
    · cases h
    · exact physReadWord_ok h

/-- A byte read that succeeds changes nothing, but may draw a free value from a device (20 R62) or pass a setting of the switches (R66). -/
theorem memReadByteIn_ok {mode : Mode} {va : Word} {v : Byte} {s t : State} (h : memReadByteIn mode va s = .ok v t) :
    ∃ n, t = s.drawn n := by
  rw [memReadByteIn_apply] at h
  split at h
  · cases h
  · exact physReadByte_ok h

/-! ## The PC and the stack -/

/-- Fetching the word the PC addresses (10 R22). -/
theorem fetchWord_apply (s : State) :
    fetchWord s = match memReadWordIn s.mode s.pc s with
      | .ok w t => .ok w (t.setReg .pc (s.pc + 2))
      | .error e t => .error e t := by
  rw [fetchWord]
  simp only [bind_apply, readReg_apply, memReadWord_apply, show s.reg .pc = s.pc from rfl]
  cases memReadWordIn s.mode s.pc s <;> simp

/-- The state after the push check: the yellow stack trap is due after a push below 0400 in kernel mode (20 R67). -/
def State.afterPush (s : State) (mode : Mode) (va : Word) : State :=
  if mode = .kernel ∧ va < 0o400 then { s with yellowPending := true } else s

@[simp] theorem notePush_apply (mode : Mode) (va : Word) (s : State) : notePush mode va s = .ok () (s.afterPush mode va) := by
  unfold notePush State.afterPush
  split <;> rfl

/-- `push` (00 R15, 10 R23): SP is decremented first, and the word is written where it then points. -/
theorem push_apply (v : Word) (s : State) :
    push v s = match memWriteWordIn s.mode (s.reg .sp - 2) v (s.setReg .sp (s.reg .sp - 2)) with
      | .ok _ t => .ok () (t.afterPush s.mode (s.reg .sp - 2))
      | .error e t => .error e t := by
  rw [push]
  simp only [bind_apply, readReg_apply, writeReg_apply, currentMode_apply, setReg_mode]
  cases memWriteWordIn s.mode (s.reg .sp - 2) v (s.setReg .sp (s.reg .sp - 2)) <;> simp

/-- `pop` (00 R15, 10 R23): the word SP points at is read, then SP is incremented. -/
theorem pop_apply (s : State) :
    pop s = match memReadWordIn s.mode (s.reg .sp) s with
      | .ok v t => .ok v (t.setReg .sp (s.reg .sp + 2))
      | .error e t => .error e t := by
  rw [pop]
  simp only [bind_apply, readReg_apply, memReadWord_apply]
  cases memReadWordIn s.mode (s.reg .sp) s <;> simp

/-! ## Traps -/

theorem vectorFetch_apply (n : Word) (s : State) :
    vectorFetch n s = match memReadWordIn .kernel n s with
      | .ok newPc t => (match memReadWordIn .kernel (n + 2) t with
        | .ok newPs u => .ok (newPc, newPs) u
        | .error e u => .error e u)
      | .error e t => .error e t := by
  rw [vectorFetch, bind_apply]
  cases memReadWordIn .kernel n s with
  | error e t => rfl
  | ok newPc t =>
    simp only [bind_apply]
    cases memReadWordIn .kernel (n + 2) t <;> simp

theorem pushKernel_apply (v : Word) (s : State) :
    pushKernel v s = match memWriteWordIn .kernel (s.ksp - 2) v { s with ksp := s.ksp - 2 } with
      | .ok _ t => .ok () t
      | .error e t => .error e t := by
  rw [pushKernel]
  simp only [bind_apply, get_apply, set_apply]
  cases memWriteWordIn .kernel (s.ksp - 2) v { s with ksp := s.ksp - 2 } <;> simp

/-- The trap sequence succeeds where its vector fetch and its two pushes do: PC and PS from the vector, the old ones on the
kernel stack (60 R241). -/
theorem trapAt_of_ok {n newPc newPs : Word} {s s1 s2 : State} (hv : vectorFetch n s = .ok (newPc, newPs) s1)
    (hp : trapPushes (pswRead s.psw) s.pc { s1 with psw := pswOfTrap s.psw newPs } = .ok () s2) :
    trapAt n s = .next { s2 with pc := newPc, yellowPending := false, traceInhibit := false } := by
  simp only [trapAt, hv, hp]

/-- A failing vector fetch leaves the trap sequence without a successor (93 U9). -/
theorem trapAt_of_vector_error {n : Word} {s s1 : State} {e : Exn} (hv : vectorFetch n s = .error (.raised e) s1) :
    trapAt n s = .fault .vectorFetchFailed := by
  simp only [trapAt, hv]

/-- A failing push of the trap sequence is the red stack trap (60 R248). -/
theorem trapAt_of_push_error {n newPc newPs : Word} {s s1 s2 : State} {e : Exn} (hv : vectorFetch n s = .ok (newPc, newPs) s1)
    (hp : trapPushes (pswRead s.psw) s.pc { s1 with psw := pswOfTrap s.psw newPs } = .error (.raised e) s2) :
    trapAt n s = redStackTrap (pswRead s.psw) s.pc s2 := by
  simp only [trapAt, hv, hp]

end Sys2Proof.Machine
end

