-- ==== Sys2Proof/Laws/Operands.lean ====
section
/-! SUPPORT. What operand specifications, loads, stores and the shapes of instructions can do, said once (30 R111 to R115). -/

namespace Sys2Proof.Machine

/-! ## Operand specifications (30 R111) -/

theorem operand_register (w : Width) (r : Reg) (s : State) : operand w ⟨.register, r⟩ s = .ok (.reg r) s := rfl

theorem operand_indirect (w : Width) (r : Reg) (s : State) : operand w ⟨.indirect, r⟩ s = .ok (.mem (s.reg r) false) s := rfl

theorem operand_autoInc (w : Width) (r : Reg) (s : State) :
    operand w ⟨.autoInc, r⟩ s = .ok (.mem (s.reg r) false) (s.setReg r (s.reg r + stepOf w r)) := rfl

theorem operand_autoDec (w : Width) (r : Reg) (s : State) :
    operand w ⟨.autoDec, r⟩ s = .ok (.mem (s.reg r - stepOf w r) (r = .sp)) (s.setReg r (s.reg r - stepOf w r)) := rfl

theorem operand_autoIncIndirect (w : Width) (r : Reg) (s : State) :
    operand w ⟨.autoIncIndirect, r⟩ s = match memReadWordIn s.mode (s.reg r) s with
      | .ok ea t => .ok (.mem ea false) (t.setReg r (s.reg r + 2))
      | .error e t => .error e t := by
  simp only [operand, bind_apply, readReg_apply, memReadWord_apply]
  cases memReadWordIn s.mode (s.reg r) s <;> simp

theorem operand_autoDecIndirect (w : Width) (r : Reg) (s : State) :
    operand w ⟨.autoDecIndirect, r⟩ s =
      match memReadWordIn s.mode (s.reg r - 2) (s.setReg r (s.reg r - 2)) with
      | .ok ea t => .ok (.mem ea false) t
      | .error e t => .error e t := by
  simp only [operand, bind_apply, readReg_apply, writeReg_apply, memReadWord_apply, setReg_mode]
  cases memReadWordIn s.mode (s.reg r - 2) (s.setReg r (s.reg r - 2)) <;> simp

theorem operand_index (w : Width) (r : Reg) (s : State) :
    operand w ⟨.index, r⟩ s = match fetchWord s with
      | .ok idx t => .ok (.mem (idx + t.reg r) false) t
      | .error e t => .error e t := by
  simp only [operand, bind_apply, readReg_apply]
  cases fetchWord s <;> simp

theorem operand_indexIndirect (w : Width) (r : Reg) (s : State) :
    operand w ⟨.indexIndirect, r⟩ s = match fetchWord s with
      | .ok idx t => (match memReadWordIn t.mode (idx + t.reg r) t with
        | .ok ea u => .ok (.mem ea false) u
        | .error e u => .error e u)
      | .error e t => .error e t := by
  simp only [operand, bind_apply, readReg_apply, memReadWord_apply]
  cases fetchWord s with
  | error e t => rfl
  | ok idx t =>
    cases h : memReadWordIn t.mode (idx + t.reg r) t <;> simp [h]

/-! ## Loads and stores (30 R112, R113) -/

@[simp] theorem loadWord_reg (r : Reg) (s : State) : loadWord (.reg r) s = .ok (s.reg r) s := rfl

@[simp] theorem loadWord_mem (ea : Word) (pushed : Bool) (s : State) :
    loadWord (.mem ea pushed) s = memReadWordIn s.mode ea s := rfl

@[simp] theorem loadByte_reg (r : Reg) (s : State) : loadByte (.reg r) s = .ok (lowByte (s.reg r)) s := rfl

@[simp] theorem loadByte_mem (ea : Word) (pushed : Bool) (s : State) :
    loadByte (.mem ea pushed) s = memReadByteIn s.mode ea s := rfl

@[simp] theorem storeWordIn_reg (mode : Mode) (r : Reg) (v : Word) (s : State) :
    storeWordIn mode (.reg r) v s = .ok false (s.setReg r v) := rfl

/-- The state after a store to memory: the push check where the location is tagged (30 R113, 20 R67). -/
def State.afterStore (t : State) (pushed : Bool) (mode : Mode) (ea : Word) : State :=
  if pushed then t.afterPush mode ea else t

theorem storeWordIn_mem (mode : Mode) (ea : Word) (pushed : Bool) (v : Word) (s : State) :
    storeWordIn mode (.mem ea pushed) v s = match memWriteWordIn mode ea v s with
      | .ok hit t => .ok hit (t.afterStore pushed s.mode ea)
      | .error e t => .error e t := by
  simp only [storeWordIn, bind_apply, currentMode_apply]
  cases memWriteWordIn mode ea v s with
  | error e t => rfl
  | ok hit t => cases pushed <;> simp [State.afterStore, bind_apply]

@[simp] theorem storeWord_apply (loc : Loc) (v : Word) (s : State) : storeWord loc v s = storeWordIn s.mode loc v s := rfl

@[simp] theorem storeByteAs_reg (dest : ByteRegDest) (r : Reg) (v : Byte) (s : State) :
    storeByteAs dest (.reg r) v s = .ok false (s.setReg r (byteInReg dest (s.reg r) v)) := rfl

theorem storeByteAs_mem (dest : ByteRegDest) (ea : Word) (pushed : Bool) (v : Byte) (s : State) :
    storeByteAs dest (.mem ea pushed) v s = match memWriteByteIn s.mode ea v s with
      | .ok hit t => .ok hit (t.afterStore pushed s.mode ea)
      | .error e t => .error e t := by
  simp only [storeByteAs, bind_apply, currentMode_apply]
  cases memWriteByteIn s.mode ea v s with
  | error e t => rfl
  | ok hit t => cases pushed <;> simp [State.afterStore, bind_apply]

@[simp] theorem storeByte_apply (loc : Loc) (v : Byte) (s : State) : storeByte loc v s = storeByteAs s.cfg.byteRegDest loc v s := rfl

/-! ## Shapes that run to their end -/

/-- The condition codes after a store: assigned, but for a store that landed on the PSW (20 R65). -/
def State.codesAfter (s : State) (hit : Bool) (f : Flags) : State := if hit then s else s.setFlags f

@[simp] theorem codesAfter_hit (s : State) (f : Flags) : s.codesAfter true f = s := rfl

@[simp] theorem codesAfter_miss (s : State) (f : Flags) : s.codesAfter false f = s.setFlags f := rfl

theorem rmwWord_of_ok {op : Flags → Word → Word × Flags} {dd : Operand} {s s1 s2 s3 : State} {loc : Loc} {d : Word} {hit : Bool}
    (h1 : operand .word dd s = .ok loc s1) (h2 : loadWord loc s1 = .ok d s2)
    (h3 : storeWord loc (op s2.flags d).1 s2 = .ok hit s3) :
    rmwWord op dd s = .ok () (s3.codesAfter hit (op s2.flags d).2) := by
  rw [rmwWord, bind_of_ok h1, bind_of_ok h2, bind_of_ok (readFlags_apply s2), bind_of_ok h3, assignFlags_apply]
  rfl

theorem rmwByte_of_ok {op : Flags → Byte → Byte × Flags} {dd : Operand} {s s1 s2 s3 : State} {loc : Loc} {d : Byte} {hit : Bool}
    (h1 : operand .byte dd s = .ok loc s1) (h2 : loadByte loc s1 = .ok d s2)
    (h3 : storeByte loc (op s2.flags d).1 s2 = .ok hit s3) :
    rmwByte op dd s = .ok () (s3.codesAfter hit (op s2.flags d).2) := by
  rw [rmwByte, bind_of_ok h1, bind_of_ok h2, bind_of_ok (readFlags_apply s2), bind_of_ok h3, assignFlags_apply]
  rfl

theorem putWordTo_of_ok {op : Flags → Word × Flags} {dd : Operand} {s s1 s3 : State} {loc : Loc} {hit : Bool}
    (h1 : operand .word dd s = .ok loc s1) (h3 : storeWord loc (op s1.flags).1 s1 = .ok hit s3) :
    putWordTo op dd s = .ok () (s3.codesAfter hit (op s1.flags).2) := by
  rw [putWordTo, bind_of_ok h1, bind_of_ok (readFlags_apply s1), bind_of_ok h3, assignFlags_apply]
  rfl

theorem putByteTo_of_ok {op : Flags → Byte × Flags} {dd : Operand} {s s1 s3 : State} {loc : Loc} {hit : Bool}
    (h1 : operand .byte dd s = .ok loc s1) (h3 : storeByte loc (op s1.flags).1 s1 = .ok hit s3) :
    putByteTo op dd s = .ok () (s3.codesAfter hit (op s1.flags).2) := by
  rw [putByteTo, bind_of_ok h1, bind_of_ok (readFlags_apply s1), bind_of_ok h3, assignFlags_apply]
  rfl

theorem testWord_of_ok {op : Flags → Word → Flags} {dd : Operand} {s s1 s2 : State} {loc : Loc} {d : Word}
    (h1 : operand .word dd s = .ok loc s1) (h2 : loadWord loc s1 = .ok d s2) :
    testWord op dd s = .ok () (s2.setFlags (op s2.flags d)) := by
  rw [testWord, bind_of_ok h1, bind_of_ok h2, bind_of_ok (readFlags_apply s2), writeFlags_apply]

theorem testByte_of_ok {op : Flags → Byte → Flags} {dd : Operand} {s s1 s2 : State} {loc : Loc} {d : Byte}
    (h1 : operand .byte dd s = .ok loc s1) (h2 : loadByte loc s1 = .ok d s2) :
    testByte op dd s = .ok () (s2.setFlags (op s2.flags d)) := by
  rw [testByte, bind_of_ok h1, bind_of_ok h2, bind_of_ok (readFlags_apply s2), writeFlags_apply]

theorem sourceWord_of_ok {ss : Operand} {s s1 s2 : State} {loc : Loc} {v : Word}
    (h1 : operand .word ss s = .ok loc s1) (h2 : loadWord loc s1 = .ok v s2) : sourceWord ss s = .ok v s2 := by
  rw [sourceWord, bind_of_ok h1, h2]

theorem sourceByte_of_ok {ss : Operand} {s s1 s2 : State} {loc : Loc} {v : Byte}
    (h1 : operand .byte ss s = .ok loc s1) (h2 : loadByte loc s1 = .ok v s2) : sourceByte ss s = .ok v s2 := by
  rw [sourceByte, bind_of_ok h1, h2]

/-! ## What a shape that ran to its end went through -/

theorem rmwWord_ok {op : Flags → Word → Word × Flags} {dd : Operand} {s t : State} (h : rmwWord op dd s = .ok () t) :
    ∃ loc s1 d s2 hit s3, operand .word dd s = .ok loc s1 ∧ loadWord loc s1 = .ok d s2 ∧
      storeWord loc (op s2.flags d).1 s2 = .ok hit s3 ∧ t = s3.codesAfter hit (op s2.flags d).2 := by
  obtain ⟨loc, s1, h1, h⟩ := bind_eq_ok.mp h
  obtain ⟨d, s2, h2, h⟩ := bind_eq_ok.mp h
  rw [bind_of_ok (readFlags_apply s2)] at h
  obtain ⟨hit, s3, h3, h⟩ := bind_eq_ok.mp h
  rw [assignFlags_apply] at h
  cases h
  exact ⟨loc, s1, d, s2, hit, s3, h1, h2, h3, rfl⟩

theorem rmwByte_ok {op : Flags → Byte → Byte × Flags} {dd : Operand} {s t : State} (h : rmwByte op dd s = .ok () t) :
    ∃ loc s1 d s2 hit s3, operand .byte dd s = .ok loc s1 ∧ loadByte loc s1 = .ok d s2 ∧
      storeByte loc (op s2.flags d).1 s2 = .ok hit s3 ∧ t = s3.codesAfter hit (op s2.flags d).2 := by
  obtain ⟨loc, s1, h1, h⟩ := bind_eq_ok.mp h
  obtain ⟨d, s2, h2, h⟩ := bind_eq_ok.mp h
  rw [bind_of_ok (readFlags_apply s2)] at h
  obtain ⟨hit, s3, h3, h⟩ := bind_eq_ok.mp h
  rw [assignFlags_apply] at h
  cases h
  exact ⟨loc, s1, d, s2, hit, s3, h1, h2, h3, rfl⟩

theorem putWordTo_ok {op : Flags → Word × Flags} {dd : Operand} {s t : State} (h : putWordTo op dd s = .ok () t) :
    ∃ loc s1 hit s3, operand .word dd s = .ok loc s1 ∧
      storeWord loc (op s1.flags).1 s1 = .ok hit s3 ∧ t = s3.codesAfter hit (op s1.flags).2 := by
  obtain ⟨loc, s1, h1, h⟩ := bind_eq_ok.mp h
  rw [bind_of_ok (readFlags_apply s1)] at h
  obtain ⟨hit, s3, h3, h⟩ := bind_eq_ok.mp h
  rw [assignFlags_apply] at h
  cases h
  exact ⟨loc, s1, hit, s3, h1, h3, rfl⟩

theorem putByteTo_ok {op : Flags → Byte × Flags} {dd : Operand} {s t : State} (h : putByteTo op dd s = .ok () t) :
    ∃ loc s1 hit s3, operand .byte dd s = .ok loc s1 ∧
      storeByte loc (op s1.flags).1 s1 = .ok hit s3 ∧ t = s3.codesAfter hit (op s1.flags).2 := by
  obtain ⟨loc, s1, h1, h⟩ := bind_eq_ok.mp h
  rw [bind_of_ok (readFlags_apply s1)] at h
  obtain ⟨hit, s3, h3, h⟩ := bind_eq_ok.mp h
  rw [assignFlags_apply] at h
  cases h
  exact ⟨loc, s1, hit, s3, h1, h3, rfl⟩

theorem testWord_ok {op : Flags → Word → Flags} {dd : Operand} {s t : State} (h : testWord op dd s = .ok () t) :
    ∃ loc s1 d s2, operand .word dd s = .ok loc s1 ∧ loadWord loc s1 = .ok d s2 ∧ t = s2.setFlags (op s2.flags d) := by
  obtain ⟨loc, s1, h1, h⟩ := bind_eq_ok.mp h
  obtain ⟨d, s2, h2, h⟩ := bind_eq_ok.mp h
  rw [bind_of_ok (readFlags_apply s2), writeFlags_apply] at h
  cases h
  exact ⟨loc, s1, d, s2, h1, h2, rfl⟩

theorem testByte_ok {op : Flags → Byte → Flags} {dd : Operand} {s t : State} (h : testByte op dd s = .ok () t) :
    ∃ loc s1 d s2, operand .byte dd s = .ok loc s1 ∧ loadByte loc s1 = .ok d s2 ∧ t = s2.setFlags (op s2.flags d) := by
  obtain ⟨loc, s1, h1, h⟩ := bind_eq_ok.mp h
  obtain ⟨d, s2, h2, h⟩ := bind_eq_ok.mp h
  rw [bind_of_ok (readFlags_apply s2), writeFlags_apply] at h
  cases h
  exact ⟨loc, s1, d, s2, h1, h2, rfl⟩

end Sys2Proof.Machine
end

