-- ==== Sys2Proof/Laws/Keeps.lean ====
section
/-! SUPPORT. Properties of the state that every instruction keeps: it is enough that the primitive changes keep them. -/

namespace Sys2Proof.Machine

/-- What a result leaves: `P` where the action ended, `Q` where it stopped. -/
def Leaves {α : Type} (P Q : State → Prop) : EStateM.Result Abort State α → Prop
  | .ok _ t => P t
  | .error _ t => Q t

/-- The action keeps `P`, and where it stops it leaves `Q`. -/
def Keeps {α : Type} (P Q : State → Prop) (a : Action α) : Prop := ∀ s, P s → Leaves P Q (a s)

/-- The changes an instruction is made of keep `P`, and its stops leave `Q`. -/
structure Closed (P Q : State → Prop) : Prop where
  weaken : ∀ s, P s → Q s
  setReg : ∀ s r v, P s → P (s.setReg r v)
  setFlags : ∀ s f, P s → P (s.setFlags f)
  setPreviousSp : ∀ s v, P s → P (s.setStackPointer s.prevMode v)
  drawn : ∀ s n, P s → P (s.drawn n)
  yellow : ∀ s, P s → P { s with yellowPending := true }
  mmuFault : ∀ s mode va kind, P s → Q (s.withMmuFault mode va kind)
  writeWord : ∀ s mode va v, mode = s.mode ∨ mode = s.prevMode → P s → Leaves P Q (memWriteWordIn mode va v s)
  writeByte : ∀ s va v, P s → Leaves P Q (memWriteByteIn s.mode va v s)
  returnPsw : ∀ s v, P s → Leaves P Q (loadReturnPsw v s)
  inhibit : ∀ s, P s → P { s with traceInhibit := true }
  wait : ∀ s, P s → P { s with run := .waiting }
  halt : ∀ s, s.mode = .kernel → P s → P { s with run := .halted }
  reset : ∀ s, s.mode = .kernel → P s → Leaves P Q (resetDevices s)

variable {P Q : State → Prop}

/-! ## Sequencing -/

theorem keeps_bind {α β : Type} {x : Action α} {f : α → Action β} (hx : Keeps P Q x) (hf : ∀ a, Keeps P Q (f a)) :
    Keeps P Q (x >>= f) := by
  intro s hs
  have h := hx s hs
  rw [bind_apply]
  cases hr : x s with
  | ok a t => rw [hr] at h; exact hf a t h
  | error e t => rw [hr] at h; exact h

theorem keeps_pure {α : Type} (a : α) : Keeps P Q (pure a : Action α) := fun _ hs => hs

theorem keeps_raise {α : Type} (hc : Closed P Q) (e : Exn) : Keeps P Q (raise e : Action α) := fun s hs => hc.weaken s hs

theorem keeps_refuse {α : Type} (hc : Closed P Q) (r : Refusal) : Keeps P Q (refuse r : Action α) := fun s hs => hc.weaken s hs

/-- An action that ends with the state unchanged. -/
theorem keeps_of_same {α : Type} {a : Action α} (h : ∀ s, ∃ v, a s = .ok v s) : Keeps P Q a := by
  intro s hs
  obtain ⟨v, hv⟩ := h s
  rw [hv]
  exact hs

theorem keeps_readReg (r : Reg) : Keeps P Q (readReg r) := keeps_of_same fun s => ⟨_, readReg_apply r s⟩

theorem keeps_currentMode : Keeps P Q currentMode := keeps_of_same fun s => ⟨_, currentMode_apply s⟩

theorem keeps_previousMode : Keeps P Q previousMode := keeps_of_same fun s => ⟨_, previousMode_apply s⟩

theorem keeps_readFlags : Keeps P Q readFlags := keeps_of_same fun s => ⟨_, readFlags_apply s⟩

theorem keeps_writeReg (hc : Closed P Q) (r : Reg) (v : Word) : Keeps P Q (writeReg r v) := fun s hs => hc.setReg s r v hs

theorem keeps_writeFlags (hc : Closed P Q) (f : Flags) : Keeps P Q (writeFlags f) := fun s hs => hc.setFlags s f hs

theorem keeps_assignFlags (hc : Closed P Q) (hit : Bool) (f : Flags) : Keeps P Q (assignFlags hit f) := by
  cases hit
  · exact keeps_writeFlags hc f
  · exact keeps_pure ()

theorem keeps_drawWord (hc : Closed P Q) : Keeps P Q drawWord := by
  intro s hs
  have h := hc.drawn s ⟨1, 0⟩ hs
  rw [drawn_value] at h
  exact h

theorem keeps_drawByte (hc : Closed P Q) : Keeps P Q drawByte := by
  intro s hs
  have h := hc.drawn s ⟨1, 0⟩ hs
  rw [drawn_value] at h
  exact h

theorem keeps_drawBit (hc : Closed P Q) : Keeps P Q drawBit := by
  intro s hs
  have h := hc.drawn s ⟨1, 0⟩ hs
  rw [drawn_value] at h
  exact h

/-- Two properties that are kept are kept together. -/
theorem leaves_and {α : Type} {P' Q' : State → Prop} {r : EStateM.Result Abort State α} (h : Leaves P Q r) (h' : Leaves P' Q' r) :
    Leaves (fun s => P s ∧ P' s) (fun s => Q s ∧ Q' s) r := by
  cases r <;> exact ⟨h, h'⟩

theorem closed_and {P' Q' : State → Prop} (h : Closed P Q) (h' : Closed P' Q') :
    Closed (fun s => P s ∧ P' s) (fun s => Q s ∧ Q' s) where
  weaken := fun s hs => ⟨h.weaken s hs.1, h'.weaken s hs.2⟩
  setReg := fun s r v hs => ⟨h.setReg s r v hs.1, h'.setReg s r v hs.2⟩
  setFlags := fun s f hs => ⟨h.setFlags s f hs.1, h'.setFlags s f hs.2⟩
  setPreviousSp := fun s v hs => ⟨h.setPreviousSp s v hs.1, h'.setPreviousSp s v hs.2⟩
  drawn := fun s n hs => ⟨h.drawn s n hs.1, h'.drawn s n hs.2⟩
  yellow := fun s hs => ⟨h.yellow s hs.1, h'.yellow s hs.2⟩
  mmuFault := fun s m va k hs => ⟨h.mmuFault s m va k hs.1, h'.mmuFault s m va k hs.2⟩
  writeWord := fun s m va v hm hs => leaves_and (h.writeWord s m va v hm hs.1) (h'.writeWord s m va v hm hs.2)
  writeByte := fun s va v hs => leaves_and (h.writeByte s va v hs.1) (h'.writeByte s va v hs.2)
  returnPsw := fun s v hs => leaves_and (h.returnPsw s v hs.1) (h'.returnPsw s v hs.2)
  inhibit := fun s hs => ⟨h.inhibit s hs.1, h'.inhibit s hs.2⟩
  wait := fun s hs => ⟨h.wait s hs.1, h'.wait s hs.2⟩
  halt := fun s hm hs => ⟨h.halt s hm hs.1, h'.halt s hm hs.2⟩
  reset := fun s hm hs => leaves_and (h.reset s hm hs.1) (h'.reset s hm hs.2)

/-! ## Accesses -/

theorem keeps_physReadWord (hc : Closed P Q) (pa : PhysAddr) : Keeps P Q (physReadWord pa) := by
  intro s hs
  cases h : physReadWord pa s with
  | ok v t =>
    obtain ⟨n, rfl⟩ := physReadWord_ok h
    exact hc.drawn s n hs
  | error e t => rw [(physReadWord_error h).2]; exact hc.weaken s hs

theorem keeps_physReadByte (hc : Closed P Q) (pa : PhysAddr) : Keeps P Q (physReadByte pa) := by
  intro s hs
  cases h : physReadByte pa s with
  | ok v t =>
    obtain ⟨n, rfl⟩ := physReadByte_ok h
    exact hc.drawn s n hs
  | error e t => rw [(physReadByte_error h).2]; exact hc.weaken s hs

theorem keeps_memReadWordIn (hc : Closed P Q) (mode : Mode) (va : Word) : Keeps P Q (memReadWordIn mode va) := by
  intro s hs
  rw [memReadWordIn_apply]
  split
  · exact hc.weaken s hs
  · split
    · exact hc.mmuFault s mode va .read hs
    · exact keeps_physReadWord hc _ s hs

theorem keeps_memReadByteIn (hc : Closed P Q) (mode : Mode) (va : Word) : Keeps P Q (memReadByteIn mode va) := by
  intro s hs
  rw [memReadByteIn_apply]
  split
  · exact hc.mmuFault s mode va .read hs
  · exact keeps_physReadByte hc _ s hs

theorem keeps_memReadWord (hc : Closed P Q) (va : Word) : Keeps P Q (memReadWord va) :=
  keeps_bind keeps_currentMode fun mode => keeps_memReadWordIn hc mode va

theorem keeps_memReadByte (hc : Closed P Q) (va : Word) : Keeps P Q (memReadByte va) :=
  keeps_bind keeps_currentMode fun mode => keeps_memReadByteIn hc mode va

theorem keeps_fetchWord (hc : Closed P Q) : Keeps P Q fetchWord :=
  keeps_bind (keeps_readReg _) fun pc => keeps_bind (keeps_memReadWord hc pc) fun _ =>
    keeps_bind (keeps_writeReg hc _ _) fun _ => keeps_pure _

theorem afterPush_keeps (hc : Closed P Q) (s : State) (mode : Mode) (va : Word) (hs : P s) : P (s.afterPush mode va) := by
  unfold State.afterPush
  split
  · exact hc.yellow s hs
  · exact hs

theorem afterStore_keeps (hc : Closed P Q) (s : State) (pushed : Bool) (mode : Mode) (va : Word) (hs : P s) :
    P (s.afterStore pushed mode va) := by
  cases pushed
  · exact hs
  · exact afterPush_keeps hc s mode va hs

theorem keeps_push (hc : Closed P Q) (v : Word) : Keeps P Q (push v) := by
  intro s hs
  have h := hc.writeWord (s.setReg .sp (s.reg .sp - 2)) s.mode (s.reg .sp - 2) v (.inl (by simp)) (hc.setReg s _ _ hs)
  rw [push_apply]
  cases hr : memWriteWordIn s.mode (s.reg .sp - 2) v (s.setReg .sp (s.reg .sp - 2)) with
  | ok hit t => rw [hr] at h; exact afterPush_keeps hc t _ _ h
  | error e t => rw [hr] at h; exact h

theorem keeps_pop (hc : Closed P Q) : Keeps P Q pop :=
  keeps_bind (keeps_readReg _) fun sp => keeps_bind (keeps_memReadWord hc sp) fun _ =>
    keeps_bind (keeps_writeReg hc _ _) fun _ => keeps_pure _

/-! ## Operands -/

theorem keeps_operand (hc : Closed P Q) (w : Width) (o : Operand) : Keeps P Q (operand w o) := by
  rcases o with ⟨m, r⟩
  cases m
  · exact keeps_pure _
  · exact keeps_bind (keeps_readReg _) fun _ => keeps_pure _
  · exact keeps_bind (keeps_readReg _) fun _ => keeps_bind (keeps_writeReg hc _ _) fun _ => keeps_pure _
  · exact keeps_bind (keeps_readReg _) fun _ => keeps_bind (keeps_memReadWord hc _) fun _ =>
      keeps_bind (keeps_writeReg hc _ _) fun _ => keeps_pure _
  · exact keeps_bind (keeps_readReg _) fun _ => keeps_bind (keeps_writeReg hc _ _) fun _ => keeps_pure _
  · exact keeps_bind (keeps_readReg _) fun _ => keeps_bind (keeps_writeReg hc _ _) fun _ =>
      keeps_bind (keeps_memReadWord hc _) fun _ => keeps_pure _
  · exact keeps_bind (keeps_fetchWord hc) fun _ => keeps_bind (keeps_readReg _) fun _ => keeps_pure _
  · exact keeps_bind (keeps_fetchWord hc) fun _ => keeps_bind (keeps_readReg _) fun _ =>
      keeps_bind (keeps_memReadWord hc _) fun _ => keeps_pure _

theorem keeps_loadWord (hc : Closed P Q) (loc : Loc) : Keeps P Q (loadWord loc) := by
  cases loc
  · exact keeps_readReg _
  · exact keeps_memReadWord hc _

theorem keeps_loadByte (hc : Closed P Q) (loc : Loc) : Keeps P Q (loadByte loc) := by
  cases loc
  · exact keeps_bind (keeps_readReg _) fun _ => keeps_pure _
  · exact keeps_memReadByte hc _

theorem storeWordIn_keeps (hc : Closed P Q) (loc : Loc) (v : Word) (s : State) (mode : Mode)
    (hm : mode = s.mode ∨ mode = s.prevMode) (hs : P s) : Leaves P Q (storeWordIn mode loc v s) := by
  cases loc with
  | reg r => exact hc.setReg s r v hs
  | mem ea pushed =>
    have h := hc.writeWord s mode ea v hm hs
    rw [storeWordIn_mem]
    cases hr : memWriteWordIn mode ea v s with
    | ok hit t => rw [hr] at h; exact afterStore_keeps hc t pushed _ _ h
    | error e t => rw [hr] at h; exact h

theorem keeps_storeWord (hc : Closed P Q) (loc : Loc) (v : Word) : Keeps P Q (storeWord loc v) := by
  intro s hs
  rw [storeWord_apply]
  exact storeWordIn_keeps hc loc v s s.mode (.inl rfl) hs

theorem keeps_storeByteAs (hc : Closed P Q) (dest : ByteRegDest) (loc : Loc) (v : Byte) : Keeps P Q (storeByteAs dest loc v) := by
  intro s hs
  cases loc with
  | reg r => exact hc.setReg s r _ hs
  | mem ea pushed =>
    have h := hc.writeByte s ea v hs
    rw [storeByteAs_mem]
    cases hr : memWriteByteIn s.mode ea v s with
    | ok hit t => rw [hr] at h; exact afterStore_keeps hc t pushed _ _ h
    | error e t => rw [hr] at h; exact h

theorem keeps_storeByte (hc : Closed P Q) (loc : Loc) (v : Byte) : Keeps P Q (storeByte loc v) := by
  intro s hs
  rw [storeByte_apply]
  exact keeps_storeByteAs hc _ loc v s hs

/-! ## Shapes -/

theorem keeps_rmwWord (hc : Closed P Q) (op : Flags → Word → Word × Flags) (dd : Operand) : Keeps P Q (rmwWord op dd) :=
  keeps_bind (keeps_operand hc _ _) fun _ => keeps_bind (keeps_loadWord hc _) fun _ => keeps_bind keeps_readFlags fun _ =>
    keeps_bind (keeps_storeWord hc _ _) fun _ => keeps_assignFlags hc _ _

theorem keeps_rmwByte (hc : Closed P Q) (op : Flags → Byte → Byte × Flags) (dd : Operand) : Keeps P Q (rmwByte op dd) :=
  keeps_bind (keeps_operand hc _ _) fun _ => keeps_bind (keeps_loadByte hc _) fun _ => keeps_bind keeps_readFlags fun _ =>
    keeps_bind (keeps_storeByte hc _ _) fun _ => keeps_assignFlags hc _ _

theorem keeps_putWordTo (hc : Closed P Q) (op : Flags → Word × Flags) (dd : Operand) : Keeps P Q (putWordTo op dd) :=
  keeps_bind (keeps_operand hc _ _) fun _ => keeps_bind keeps_readFlags fun _ =>
    keeps_bind (keeps_storeWord hc _ _) fun _ => keeps_assignFlags hc _ _

theorem keeps_putByteTo (hc : Closed P Q) (op : Flags → Byte × Flags) (dd : Operand) : Keeps P Q (putByteTo op dd) :=
  keeps_bind (keeps_operand hc _ _) fun _ => keeps_bind keeps_readFlags fun _ =>
    keeps_bind (keeps_storeByte hc _ _) fun _ => keeps_assignFlags hc _ _

theorem keeps_testWord (hc : Closed P Q) (op : Flags → Word → Flags) (dd : Operand) : Keeps P Q (testWord op dd) :=
  keeps_bind (keeps_operand hc _ _) fun _ => keeps_bind (keeps_loadWord hc _) fun _ => keeps_bind keeps_readFlags fun _ =>
    keeps_writeFlags hc _

theorem keeps_testByte (hc : Closed P Q) (op : Flags → Byte → Flags) (dd : Operand) : Keeps P Q (testByte op dd) :=
  keeps_bind (keeps_operand hc _ _) fun _ => keeps_bind (keeps_loadByte hc _) fun _ => keeps_bind keeps_readFlags fun _ =>
    keeps_writeFlags hc _

theorem keeps_sourceWord (hc : Closed P Q) (ss : Operand) : Keeps P Q (sourceWord ss) :=
  keeps_bind (keeps_operand hc _ _) fun _ => keeps_loadWord hc _

theorem keeps_sourceByte (hc : Closed P Q) (ss : Operand) : Keeps P Q (sourceByte ss) :=
  keeps_bind (keeps_operand hc _ _) fun _ => keeps_loadByte hc _

theorem keeps_combineWord (hc : Closed P Q) (op : Flags → Word → Word → Word × Flags) (ss dd : Operand) :
    Keeps P Q (combineWord op ss dd) := keeps_bind (keeps_sourceWord hc _) fun _ => keeps_rmwWord hc _ _

theorem keeps_combineByte (hc : Closed P Q) (op : Flags → Byte → Byte → Byte × Flags) (ss dd : Operand) :
    Keeps P Q (combineByte op ss dd) := keeps_bind (keeps_sourceByte hc _) fun _ => keeps_rmwByte hc _ _

theorem keeps_compareWord (hc : Closed P Q) (op : Flags → Word → Word → Flags) (ss dd : Operand) :
    Keeps P Q (compareWord op ss dd) := keeps_bind (keeps_sourceWord hc _) fun _ => keeps_testWord hc _ _

theorem keeps_compareByte (hc : Closed P Q) (op : Flags → Byte → Byte → Flags) (ss dd : Operand) :
    Keeps P Q (compareByte op ss dd) := keeps_bind (keeps_sourceByte hc _) fun _ => keeps_testByte hc _ _

/-! ## The other pieces of instructions -/

theorem keeps_returnFromTrap (hc : Closed P Q) : Keeps P Q returnFromTrap :=
  keeps_bind (keeps_pop hc) fun _ => keeps_bind (keeps_writeReg hc _ _) fun _ => keeps_bind (keeps_pop hc) fun v =>
    fun s hs => hc.returnPsw s v hs

theorem keeps_inhibitTrace (hc : Closed P Q) : Keeps P Q inhibitTrace := fun s hs => hc.inhibit s hs

theorem keeps_wait (hc : Closed P Q) : Keeps P Q (setRun .waiting) := fun s hs => hc.wait s hs

theorem keeps_branchIf (hc : Closed P Q) (cond : Flags → Bool) (nn : BitVec 8) : Keeps P Q (branchIf cond nn) := by
  refine keeps_bind keeps_readFlags fun f => ?_
  cases cond f
  · exact keeps_pure ()
  · exact keeps_bind (keeps_readReg _) fun _ => keeps_writeReg hc _ _

theorem keeps_addressOf (hc : Closed P Q) (dd : Operand) : Keeps P Q (addressOf dd) := by
  refine keeps_bind (keeps_operand hc _ _) fun loc => ?_
  cases loc
  · exact keeps_raise hc _
  · exact keeps_pure _

theorem keeps_readPair (r : Reg) : Keeps P Q (readPair r) :=
  keeps_bind (keeps_readReg _) fun _ => keeps_bind (keeps_readReg _) fun _ => keeps_pure _

theorem keeps_writePair (hc : Closed P Q) (r : Reg) (v : Long) : Keeps P Q (writePair r v) :=
  keeps_bind (keeps_writeReg hc _ _) fun _ => keeps_writeReg hc _ _

theorem keeps_zeroCarry (hc : Closed P Q) (k : Int) : Keeps P Q (zeroCarry k) := by
  intro s hs
  unfold zeroCarry
  split
  · split
    · exact hs
    · exact hs
    · exact keeps_drawBit hc s hs
  · exact hs

theorem keeps_shiftRegister (hc : Closed P Q) (r : Reg) (count : Word) : Keeps P Q (shiftRegister r count) :=
  keeps_bind (keeps_readReg _) fun _ => keeps_bind (keeps_zeroCarry hc _) fun _ =>
    keeps_bind (keeps_writeReg hc _ _) fun _ => keeps_writeFlags hc _

theorem keeps_shiftPair (hc : Closed P Q) (r : Reg) (count : Word) : Keeps P Q (shiftPair r count) :=
  keeps_bind (keeps_readPair _) fun _ => keeps_bind (keeps_zeroCarry hc _) fun _ =>
    keeps_bind (keeps_writePair hc _ _) fun _ => keeps_writeFlags hc _

theorem keeps_loadPrevious (hc : Closed P Q) (loc : Loc) : Keeps P Q (loadPrevious loc) := by
  cases loc with
  | mem ea pushed => exact keeps_bind keeps_previousMode fun mode => keeps_memReadWordIn hc mode ea
  | reg r => cases r <;> first | exact keeps_readReg _ | exact keeps_of_same fun s => ⟨_, rfl⟩

theorem keeps_storePrevious (hc : Closed P Q) (loc : Loc) (v : Word) : Keeps P Q (storePrevious loc v) := by
  intro s hs
  cases loc with
  | mem ea pushed => exact storeWordIn_keeps hc (.mem ea pushed) v s s.prevMode (.inr rfl) hs
  | reg r => cases r <;> first | exact hc.setPreviousSp s v hs | exact hc.setReg s _ v hs

/-! ## Instructions -/

/-- How an instruction can end in a next state: with `P` kept, or with the trap it raised taken from a state with `Q`. -/
def Ends (P Q : State → Prop) (r : Result) : Prop :=
  ∀ t, r = .next t → P t ∨ ∃ e u, Q u ∧ takeTrap e u = .next t

theorem runInstr_ends {body : Action Unit} (h : Keeps P Q body) {s : State} (hs : P s) : Ends P Q (runInstr body s) := by
  intro t ht
  have hb := h s hs
  rcases runInstr_next_cases ht with hok | ⟨e, u, herr, htrap⟩
  · rw [hok] at hb
    exact .inl hb
  · rw [herr] at hb
    exact .inr ⟨e, u, hb, htrap⟩

/-- Every instruction ends with `P` kept, or with its trap taken from a state with `Q`. -/
theorem exec_ends (hc : Closed P Q) (i : Instr) {s : State} (hs : P s) : Ends P Q (exec i s) := by
  cases i with
  | halt =>
    refine runInstr_ends (body := do
      let mode ← currentMode
      match mode with
      | .kernel => setRun .halted
      | .user => raise .busError) ?_ hs
    intro s hs
    rw [bind_of_ok (currentMode_apply s)]
    cases hm : s.mode
    · exact hc.halt s hm hs
    · exact hc.weaken s hs
  | wait => exact runInstr_ends (keeps_wait hc) hs
  | rti => exact runInstr_ends (keeps_returnFromTrap hc) hs
  | bpt => exact runInstr_ends (keeps_raise hc _) hs
  | iot => exact runInstr_ends (keeps_raise hc _) hs
  | reset =>
    refine runInstr_ends (body := do
      let mode ← currentMode
      match mode with
      | .kernel => resetDevices
      | .user => pure ()) ?_ hs
    intro s hs
    rw [bind_of_ok (currentMode_apply s)]
    cases hm : s.mode
    · exact hc.reset s hm hs
    · exact hs
  | rtt => exact runInstr_ends (keeps_bind (keeps_returnFromTrap hc) fun _ => keeps_inhibitTrace hc) hs
  | illegalMfpt => exact runInstr_ends (keeps_raise hc _) hs
  | illegal000010 _ => exact runInstr_ends (keeps_raise hc _) hs
  | illegal000020 _ => exact runInstr_ends (keeps_raise hc _) hs
  | illegal000040 _ => exact runInstr_ends (keeps_raise hc _) hs
  | jmpMode0 _ => exact runInstr_ends (keeps_raise hc _) hs
  | jmp dd => exact runInstr_ends (keeps_bind (keeps_addressOf hc _) fun _ => keeps_writeReg hc _ _) hs
  | rts r =>
    exact runInstr_ends (keeps_bind (keeps_readReg _) fun _ => keeps_bind (keeps_writeReg hc _ _) fun _ =>
      keeps_bind (keeps_pop hc) fun _ => keeps_writeReg hc _ _) hs
  | illegal000210 _ => exact runInstr_ends (keeps_raise hc _) hs
  | illegal000220 _ => exact runInstr_ends (keeps_raise hc _) hs
  | illegalSpl _ => exact runInstr_ends (keeps_raise hc _) hs
  | clcc m => exact runInstr_ends (keeps_bind keeps_readFlags fun _ => keeps_writeFlags hc _) hs
  | secc m => exact runInstr_ends (keeps_bind keeps_readFlags fun _ => keeps_writeFlags hc _) hs
  | swab _ => exact runInstr_ends (keeps_rmwWord hc _ _) hs
  | br _ => exact runInstr_ends (keeps_branchIf hc (fun _ => true) _) hs
  | bne _ => exact runInstr_ends (keeps_branchIf hc (fun f => !f.z) _) hs
  | beq _ => exact runInstr_ends (keeps_branchIf hc (fun f => f.z) _) hs
  | bge _ => exact runInstr_ends (keeps_branchIf hc (fun f => f.n == f.v) _) hs
  | blt _ => exact runInstr_ends (keeps_branchIf hc (fun f => f.n != f.v) _) hs
  | bgt _ => exact runInstr_ends (keeps_branchIf hc (fun f => !f.z && f.n == f.v) _) hs
  | ble _ => exact runInstr_ends (keeps_branchIf hc (fun f => f.z || f.n != f.v) _) hs
  | jsrMode0 _ _ => exact runInstr_ends (keeps_raise hc _) hs
  | jsr r dd =>
    exact runInstr_ends (keeps_bind (keeps_addressOf hc _) fun _ => keeps_bind (keeps_readReg _) fun _ =>
      keeps_bind (keeps_push hc _) fun _ => keeps_bind (keeps_readReg _) fun _ => keeps_bind (keeps_writeReg hc _ _) fun _ =>
      keeps_writeReg hc _ _) hs
  | clr _ => exact runInstr_ends (keeps_putWordTo hc _ _) hs
  | com _ => exact runInstr_ends (keeps_rmwWord hc _ _) hs
  | inc _ => exact runInstr_ends (keeps_rmwWord hc _ _) hs
  | dec _ => exact runInstr_ends (keeps_rmwWord hc _ _) hs
  | neg _ => exact runInstr_ends (keeps_rmwWord hc _ _) hs
  | adc _ => exact runInstr_ends (keeps_rmwWord hc _ _) hs
  | sbc _ => exact runInstr_ends (keeps_rmwWord hc _ _) hs
  | tst _ => exact runInstr_ends (keeps_testWord hc _ _) hs
  | ror _ => exact runInstr_ends (keeps_rmwWord hc _ _) hs
  | rol _ => exact runInstr_ends (keeps_rmwWord hc _ _) hs
  | asr _ => exact runInstr_ends (keeps_rmwWord hc _ _) hs
  | asl _ => exact runInstr_ends (keeps_rmwWord hc _ _) hs
  | mark nn =>
    exact runInstr_ends (keeps_bind (keeps_readReg _) fun _ => keeps_bind (keeps_writeReg hc _ _) fun _ =>
      keeps_bind (keeps_readReg _) fun _ => keeps_bind (keeps_writeReg hc _ _) fun _ => keeps_bind (keeps_pop hc) fun _ =>
      keeps_writeReg hc _ _) hs
  | mfpi ss =>
    exact runInstr_ends (keeps_bind (keeps_operand hc _ _) fun _ => keeps_bind (keeps_loadPrevious hc _) fun _ =>
      keeps_bind (keeps_push hc _) fun _ => keeps_bind keeps_readFlags fun _ => keeps_writeFlags hc _) hs
  | mtpi dd =>
    exact runInstr_ends (keeps_bind (keeps_pop hc) fun _ => keeps_bind (keeps_operand hc _ _) fun _ =>
      keeps_bind (keeps_storePrevious hc _ _) fun _ => keeps_bind keeps_readFlags fun _ => keeps_assignFlags hc _ _) hs
  | sxt _ => exact runInstr_ends (keeps_putWordTo hc _ _) hs
  | illegalCsm _ => exact runInstr_ends (keeps_raise hc _) hs
  | illegal007100 _ => exact runInstr_ends (keeps_raise hc _) hs
  | illegalTstset _ => exact runInstr_ends (keeps_raise hc _) hs
  | illegalWrtlck _ => exact runInstr_ends (keeps_raise hc _) hs
  | illegal007400 _ => exact runInstr_ends (keeps_raise hc _) hs
  | mov ss dd => exact runInstr_ends (keeps_bind (keeps_sourceWord hc _) fun _ => keeps_putWordTo hc _ _) hs
  | cmp _ _ => exact runInstr_ends (keeps_compareWord hc _ _ _) hs
  | bit _ _ => exact runInstr_ends (keeps_compareWord hc _ _ _) hs
  | bic _ _ => exact runInstr_ends (keeps_combineWord hc _ _ _) hs
  | bis _ _ => exact runInstr_ends (keeps_combineWord hc _ _ _) hs
  | add _ _ => exact runInstr_ends (keeps_combineWord hc _ _ _) hs
  | mul r ss =>
    refine runInstr_ends (keeps_bind (keeps_sourceWord hc _) fun v => keeps_bind (keeps_readReg _) fun x => ?_) hs
    split
    · exact keeps_bind (keeps_writeReg hc _ _) fun _ => keeps_writeFlags hc _
    · exact keeps_bind (keeps_writePair hc _ _) fun _ => keeps_writeFlags hc _
  | div r ss =>
    refine runInstr_ends (keeps_bind (keeps_sourceWord hc _) fun v => ?_) hs
    split
    · exact keeps_refuse hc _
    · refine keeps_bind (keeps_readPair _) fun dividend => ?_
      split
      · exact keeps_bind (keeps_drawBit hc) fun _ => keeps_bind (keeps_drawBit hc) fun _ => keeps_writeFlags hc _
      · split
        · exact keeps_bind (keeps_drawWord hc) fun _ => keeps_bind (keeps_drawWord hc) fun _ =>
            keeps_bind (keeps_drawBit hc) fun _ => keeps_bind (keeps_drawBit hc) fun _ =>
            keeps_bind (keeps_writePair hc _ _) fun _ => keeps_writeFlags hc _
        · exact keeps_bind (keeps_writeReg hc _ _) fun _ => keeps_bind (keeps_writeReg hc _ _) fun _ => keeps_writeFlags hc _
  | ash r ss => exact runInstr_ends (keeps_bind (keeps_sourceWord hc _) fun _ => keeps_shiftRegister hc _ _) hs
  | ashc r ss =>
    refine runInstr_ends (keeps_bind (keeps_sourceWord hc _) fun v => ?_) hs
    split
    · exact keeps_shiftRegister hc _ _
    · exact keeps_shiftPair hc _ _
  | xor r dd =>
    exact runInstr_ends (keeps_bind (keeps_operand hc _ _) fun _ => keeps_bind (keeps_loadWord hc _) fun _ =>
      keeps_bind (keeps_readReg _) fun _ => keeps_bind keeps_readFlags fun _ => keeps_bind (keeps_storeWord hc _ _) fun _ =>
      keeps_assignFlags hc _ _) hs
  | illegalFis _ => exact runInstr_ends (keeps_raise hc _) hs
  | illegalCis _ => exact runInstr_ends (keeps_raise hc _) hs
  | sob r nn =>
    refine runInstr_ends (keeps_bind (keeps_readReg _) fun x => keeps_bind (keeps_writeReg hc _ _) fun _ => ?_) hs
    split
    · exact keeps_pure ()
    · exact keeps_bind (keeps_readReg _) fun _ => keeps_writeReg hc _ _
  | bpl _ => exact runInstr_ends (keeps_branchIf hc (fun f => !f.n) _) hs
  | bmi _ => exact runInstr_ends (keeps_branchIf hc (fun f => f.n) _) hs
  | bhi _ => exact runInstr_ends (keeps_branchIf hc (fun f => !f.c && !f.z) _) hs
  | blos _ => exact runInstr_ends (keeps_branchIf hc (fun f => f.c || f.z) _) hs
  | bvc _ => exact runInstr_ends (keeps_branchIf hc (fun f => !f.v) _) hs
  | bvs _ => exact runInstr_ends (keeps_branchIf hc (fun f => f.v) _) hs
  | bcc _ => exact runInstr_ends (keeps_branchIf hc (fun f => !f.c) _) hs
  | bcs _ => exact runInstr_ends (keeps_branchIf hc (fun f => f.c) _) hs
  | emt _ => exact runInstr_ends (keeps_raise hc _) hs
  | sys _ => exact runInstr_ends (keeps_raise hc _) hs
  | clrb _ => exact runInstr_ends (keeps_putByteTo hc _ _) hs
  | comb _ => exact runInstr_ends (keeps_rmwByte hc _ _) hs
  | incb _ => exact runInstr_ends (keeps_rmwByte hc _ _) hs
  | decb _ => exact runInstr_ends (keeps_rmwByte hc _ _) hs
  | negb _ => exact runInstr_ends (keeps_rmwByte hc _ _) hs
  | adcb _ => exact runInstr_ends (keeps_rmwByte hc _ _) hs
  | sbcb _ => exact runInstr_ends (keeps_rmwByte hc _ _) hs
  | tstb _ => exact runInstr_ends (keeps_testByte hc _ _) hs
  | rorb _ => exact runInstr_ends (keeps_rmwByte hc _ _) hs
  | rolb _ => exact runInstr_ends (keeps_rmwByte hc _ _) hs
  | asrb _ => exact runInstr_ends (keeps_rmwByte hc _ _) hs
  | aslb _ => exact runInstr_ends (keeps_rmwByte hc _ _) hs
  | illegalMtps _ => exact runInstr_ends (keeps_raise hc _) hs
  | illegalMfpd _ => exact runInstr_ends (keeps_raise hc _) hs
  | illegalMtpd _ => exact runInstr_ends (keeps_raise hc _) hs
  | illegalMfps _ => exact runInstr_ends (keeps_raise hc _) hs
  | illegal107000 _ => exact runInstr_ends (keeps_raise hc _) hs
  | movb ss dd =>
    exact runInstr_ends (keeps_bind (keeps_sourceByte hc _) fun _ => keeps_bind (keeps_operand hc _ _) fun _ =>
      keeps_bind keeps_readFlags fun _ => keeps_bind (keeps_storeByteAs hc _ _ _) fun _ => keeps_assignFlags hc _ _) hs
  | cmpb _ _ => exact runInstr_ends (keeps_compareByte hc _ _ _) hs
  | bitb _ _ => exact runInstr_ends (keeps_compareByte hc _ _ _) hs
  | bicb _ _ => exact runInstr_ends (keeps_combineByte hc _ _ _) hs
  | bisb _ _ => exact runInstr_ends (keeps_combineByte hc _ _ _) hs
  | sub _ _ => exact runInstr_ends (keeps_combineWord hc _ _ _) hs
  | illegalFp11 _ => exact runInstr_ends (keeps_raise hc _) hs

/-! ## The trap sequence -/

/-- The changes a trap sequence is made of keep `P`. -/
structure TrapClosed (P : State → Prop) : Prop where
  closed : Closed P P
  write : ∀ s mode va v, P s → Leaves P P (memWriteWordIn mode va v s)
  kernelSp : ∀ s v, P s → P { s with ksp := v }
  loadPsw : ∀ s s1 newPs, P s → P s1 → P { s1 with psw := pswOfTrap s.psw newPs }
  enter : ∀ s pc, P s → P { s with pc := pc, yellowPending := false, traceInhibit := false }
  fault : ∀ s, P s → P { s with mmr2 := s.ia }

variable {R : State → Prop}

theorem keeps_vectorFetch (hc : Closed P Q) (n : Word) : Keeps P Q (vectorFetch n) :=
  keeps_bind (keeps_memReadWordIn hc _ _) fun _ => keeps_bind (keeps_memReadWordIn hc _ _) fun _ => keeps_pure _

theorem keeps_pushKernel (hc : TrapClosed R) (v : Word) : Keeps R R (pushKernel v) := by
  intro s hs
  have h := hc.write { s with ksp := s.ksp - 2 } .kernel (s.ksp - 2) v (hc.kernelSp s _ hs)
  rw [pushKernel_apply]
  cases hr : memWriteWordIn .kernel (s.ksp - 2) v { s with ksp := s.ksp - 2 } with
  | ok hit t => rw [hr] at h; exact h
  | error e t => rw [hr] at h; exact h

theorem keeps_trapPushes (hc : TrapClosed R) (oldPs oldPc : Word) : Keeps R R (trapPushes oldPs oldPc) :=
  keeps_bind (keeps_pushKernel hc _) fun _ => keeps_pushKernel hc _

theorem redStackTrap_keeps (hc : TrapClosed R) {s u t : State} {oldPc : Word} (hs : R s) (hu : R u)
    (ht : redStackTrap (pswRead s.psw) oldPc u = .next t) : R t := by
  have hk : Keeps R R (redStackEntry (pswRead s.psw) oldPc) :=
    keeps_bind (fun s hs => hc.write s _ _ _ hs) fun _ => keeps_bind (fun s hs => hc.write s _ _ _ hs) fun _ =>
      keeps_bind (fun s hs => hc.kernelSp s 0 hs) fun _ => keeps_vectorFetch hc.closed _
  have h := hk u hu
  unfold redStackTrap at ht
  split at ht
  · rename_i newPc newPs v heq
    rw [heq] at h
    cases ht
    rw [pswOfTrap_pswRead]
    exact hc.enter _ newPc (hc.loadPsw s v newPs hs h)
  · cases ht
  · cases ht

/-- A trap sequence that ends in a next state keeps `P` (60 R241, R248). -/
theorem trapAt_keeps (hc : TrapClosed R) {n : Word} {s t : State} (hs : R s) (ht : trapAt n s = .next t) : R t := by
  have hv := keeps_vectorFetch hc.closed n s hs
  unfold trapAt at ht
  split at ht
  · cases ht
  · cases ht
  · rename_i newPc newPs s1 heq
    rw [heq] at hv
    have hp := keeps_trapPushes hc (pswRead s.psw) s.pc _ (hc.loadPsw s s1 newPs hs hv)
    split at ht
    · rename_i s2 heq2
      rw [heq2] at hp
      cases ht
      exact hc.enter _ newPc hp
    · rename_i s2 heq2
      rw [heq2] at hp
      exact redStackTrap_keeps hc hs hp ht
    · cases ht

/-- A next state of a trap sequence has nothing of the instruction pending (60 R241). -/
theorem trapAt_clears {n : Word} {s t : State} (ht : trapAt n s = .next t) : t.yellowPending = false ∧ t.traceInhibit = false := by
  have hred : ∀ o p u, redStackTrap o p u = .next t → t.yellowPending = false ∧ t.traceInhibit = false := by
    intro o p u hu
    unfold redStackTrap at hu
    split at hu <;> cases hu
    exact ⟨rfl, rfl⟩
  unfold trapAt at ht
  split at ht
  · cases ht
  · cases ht
  · split at ht
    · cases ht; exact ⟨rfl, rfl⟩
    · exact hred _ _ _ ht
    · cases ht

end Sys2Proof.Machine
end

