-- ==== Sys2Proof/Laws/PerInstr.lean ====
section
/-! SUPPORT. Per instruction: the row of the opcode table that stands for it reads its encoding and builds it back (30 R121). -/

namespace Sys2Proof.Laws

/-- Some row of the table reads the encoding of the instruction and builds the instruction from it. -/
def RowMatch.Statement (i : Instr) : Prop :=
  ∃ (k : Nat) (row : OpRow), opRows[k]? = some row ∧ row.reads (encode i) = true ∧ row.build (encode i) = i

theorem RowMatch.halt : RowMatch.Statement (.halt) :=
  ⟨0, _, rfl, rfl, rfl⟩

theorem RowMatch.wait : RowMatch.Statement (.wait) :=
  ⟨1, _, rfl, rfl, rfl⟩

theorem RowMatch.rti : RowMatch.Statement (.rti) :=
  ⟨2, _, rfl, rfl, rfl⟩

theorem RowMatch.bpt : RowMatch.Statement (.bpt) :=
  ⟨3, _, rfl, rfl, rfl⟩

theorem RowMatch.iot : RowMatch.Statement (.iot) :=
  ⟨4, _, rfl, rfl, rfl⟩

theorem RowMatch.reset : RowMatch.Statement (.reset) :=
  ⟨5, _, rfl, rfl, rfl⟩

theorem RowMatch.rtt : RowMatch.Statement (.rtt) :=
  ⟨6, _, rfl, rfl, rfl⟩

theorem RowMatch.illegalMfpt : RowMatch.Statement (.illegalMfpt) :=
  ⟨7, _, rfl, rfl, rfl⟩

theorem RowMatch.illegal000010 (x : BitVec 3) : RowMatch.Statement (.illegal000010 x) :=
  ⟨8, _, rfl, reads_field _ _ _ _ (by decide) (by decide), congrArg _ (extract_field _ _ _ (by decide) (by decide))⟩

theorem RowMatch.illegal000020 (x : BitVec 4) : RowMatch.Statement (.illegal000020 x) :=
  ⟨9, _, rfl, reads_field _ _ _ _ (by decide) (by decide), congrArg _ (extract_field _ _ _ (by decide) (by decide))⟩

theorem RowMatch.illegal000040 (x : BitVec 5) : RowMatch.Statement (.illegal000040 x) :=
  ⟨10, _, rfl, reads_field _ _ _ _ (by decide) (by decide), congrArg _ (extract_field _ _ _ (by decide) (by decide))⟩

theorem RowMatch.jmpMode0 (r : Reg) : RowMatch.Statement (.jmpMode0 r) :=
  ⟨11, _, rfl, reads_field _ _ _ _ (by decide) (by decide), congrArg _ (regAt_field _ _ _ (by decide) (by decide))⟩

theorem RowMatch.jmp (dd : Operand) : RowMatch.Statement (.jmp dd) :=
  ⟨12, _, rfl, reads_field _ _ _ _ (by decide) (by decide), congrArg _ (operandAt_field _ _ _ (by decide) (by decide))⟩

theorem RowMatch.rts (r : Reg) : RowMatch.Statement (.rts r) :=
  ⟨13, _, rfl, reads_field _ _ _ _ (by decide) (by decide), congrArg _ (regAt_field _ _ _ (by decide) (by decide))⟩

theorem RowMatch.illegal000210 (x : BitVec 3) : RowMatch.Statement (.illegal000210 x) :=
  ⟨14, _, rfl, reads_field _ _ _ _ (by decide) (by decide), congrArg _ (extract_field _ _ _ (by decide) (by decide))⟩

theorem RowMatch.illegal000220 (x : BitVec 3) : RowMatch.Statement (.illegal000220 x) :=
  ⟨15, _, rfl, reads_field _ _ _ _ (by decide) (by decide), congrArg _ (extract_field _ _ _ (by decide) (by decide))⟩

theorem RowMatch.illegalSpl (x : BitVec 3) : RowMatch.Statement (.illegalSpl x) :=
  ⟨16, _, rfl, reads_field _ _ _ _ (by decide) (by decide), congrArg _ (extract_field _ _ _ (by decide) (by decide))⟩

theorem RowMatch.clcc (m : BitVec 4) : RowMatch.Statement (.clcc m) :=
  ⟨17, _, rfl, reads_field _ _ _ _ (by decide) (by decide), congrArg _ (extract_field _ _ _ (by decide) (by decide))⟩

theorem RowMatch.secc (m : BitVec 4) : RowMatch.Statement (.secc m) :=
  ⟨18, _, rfl, reads_field _ _ _ _ (by decide) (by decide), congrArg _ (extract_field _ _ _ (by decide) (by decide))⟩

theorem RowMatch.swab (dd : Operand) : RowMatch.Statement (.swab dd) :=
  ⟨19, _, rfl, reads_field _ _ _ _ (by decide) (by decide), congrArg _ (operandAt_field _ _ _ (by decide) (by decide))⟩

theorem RowMatch.br (nn : BitVec 8) : RowMatch.Statement (.br nn) :=
  ⟨20, _, rfl, reads_field _ _ _ _ (by decide) (by decide), congrArg _ (extract_field _ _ _ (by decide) (by decide))⟩

theorem RowMatch.bne (nn : BitVec 8) : RowMatch.Statement (.bne nn) :=
  ⟨21, _, rfl, reads_field _ _ _ _ (by decide) (by decide), congrArg _ (extract_field _ _ _ (by decide) (by decide))⟩

theorem RowMatch.beq (nn : BitVec 8) : RowMatch.Statement (.beq nn) :=
  ⟨22, _, rfl, reads_field _ _ _ _ (by decide) (by decide), congrArg _ (extract_field _ _ _ (by decide) (by decide))⟩

theorem RowMatch.bge (nn : BitVec 8) : RowMatch.Statement (.bge nn) :=
  ⟨23, _, rfl, reads_field _ _ _ _ (by decide) (by decide), congrArg _ (extract_field _ _ _ (by decide) (by decide))⟩

theorem RowMatch.blt (nn : BitVec 8) : RowMatch.Statement (.blt nn) :=
  ⟨24, _, rfl, reads_field _ _ _ _ (by decide) (by decide), congrArg _ (extract_field _ _ _ (by decide) (by decide))⟩

theorem RowMatch.bgt (nn : BitVec 8) : RowMatch.Statement (.bgt nn) :=
  ⟨25, _, rfl, reads_field _ _ _ _ (by decide) (by decide), congrArg _ (extract_field _ _ _ (by decide) (by decide))⟩

theorem RowMatch.ble (nn : BitVec 8) : RowMatch.Statement (.ble nn) :=
  ⟨26, _, rfl, reads_field _ _ _ _ (by decide) (by decide), congrArg _ (extract_field _ _ _ (by decide) (by decide))⟩

theorem RowMatch.jsrMode0 (r : Reg) (d : Reg) : RowMatch.Statement (.jsrMode0 r d) :=
  ⟨27, _, rfl, reads_fields _ _ _ _ _ _ (by decide) (by decide) (by decide),
    congrArg₂ _ (regAt_high _ _ _ _ _ (by decide) (by decide) (by decide)) (regAt_low _ _ _ _ _ (by decide) (by decide) (by decide))⟩

theorem RowMatch.jsr (r : Reg) (dd : Operand) : RowMatch.Statement (.jsr r dd) :=
  ⟨28, _, rfl, reads_fields _ _ _ _ _ _ (by decide) (by decide) (by decide),
    congrArg₂ _ (regAt_high _ _ _ _ _ (by decide) (by decide) (by decide)) (operandAt_low _ _ _ _ _ (by decide) (by decide) (by decide))⟩

theorem RowMatch.clr (dd : Operand) : RowMatch.Statement (.clr dd) :=
  ⟨29, _, rfl, reads_field _ _ _ _ (by decide) (by decide), congrArg _ (operandAt_field _ _ _ (by decide) (by decide))⟩

theorem RowMatch.com (dd : Operand) : RowMatch.Statement (.com dd) :=
  ⟨30, _, rfl, reads_field _ _ _ _ (by decide) (by decide), congrArg _ (operandAt_field _ _ _ (by decide) (by decide))⟩

theorem RowMatch.inc (dd : Operand) : RowMatch.Statement (.inc dd) :=
  ⟨31, _, rfl, reads_field _ _ _ _ (by decide) (by decide), congrArg _ (operandAt_field _ _ _ (by decide) (by decide))⟩

theorem RowMatch.dec (dd : Operand) : RowMatch.Statement (.dec dd) :=
  ⟨32, _, rfl, reads_field _ _ _ _ (by decide) (by decide), congrArg _ (operandAt_field _ _ _ (by decide) (by decide))⟩

theorem RowMatch.neg (dd : Operand) : RowMatch.Statement (.neg dd) :=
  ⟨33, _, rfl, reads_field _ _ _ _ (by decide) (by decide), congrArg _ (operandAt_field _ _ _ (by decide) (by decide))⟩

theorem RowMatch.adc (dd : Operand) : RowMatch.Statement (.adc dd) :=
  ⟨34, _, rfl, reads_field _ _ _ _ (by decide) (by decide), congrArg _ (operandAt_field _ _ _ (by decide) (by decide))⟩

theorem RowMatch.sbc (dd : Operand) : RowMatch.Statement (.sbc dd) :=
  ⟨35, _, rfl, reads_field _ _ _ _ (by decide) (by decide), congrArg _ (operandAt_field _ _ _ (by decide) (by decide))⟩

theorem RowMatch.tst (dd : Operand) : RowMatch.Statement (.tst dd) :=
  ⟨36, _, rfl, reads_field _ _ _ _ (by decide) (by decide), congrArg _ (operandAt_field _ _ _ (by decide) (by decide))⟩

theorem RowMatch.ror (dd : Operand) : RowMatch.Statement (.ror dd) :=
  ⟨37, _, rfl, reads_field _ _ _ _ (by decide) (by decide), congrArg _ (operandAt_field _ _ _ (by decide) (by decide))⟩

theorem RowMatch.rol (dd : Operand) : RowMatch.Statement (.rol dd) :=
  ⟨38, _, rfl, reads_field _ _ _ _ (by decide) (by decide), congrArg _ (operandAt_field _ _ _ (by decide) (by decide))⟩

theorem RowMatch.asr (dd : Operand) : RowMatch.Statement (.asr dd) :=
  ⟨39, _, rfl, reads_field _ _ _ _ (by decide) (by decide), congrArg _ (operandAt_field _ _ _ (by decide) (by decide))⟩

theorem RowMatch.asl (dd : Operand) : RowMatch.Statement (.asl dd) :=
  ⟨40, _, rfl, reads_field _ _ _ _ (by decide) (by decide), congrArg _ (operandAt_field _ _ _ (by decide) (by decide))⟩

theorem RowMatch.mark (nn : BitVec 6) : RowMatch.Statement (.mark nn) :=
  ⟨41, _, rfl, reads_field _ _ _ _ (by decide) (by decide), congrArg _ (extract_field _ _ _ (by decide) (by decide))⟩

theorem RowMatch.mfpi (ss : Operand) : RowMatch.Statement (.mfpi ss) :=
  ⟨42, _, rfl, reads_field _ _ _ _ (by decide) (by decide), congrArg _ (operandAt_field _ _ _ (by decide) (by decide))⟩

theorem RowMatch.mtpi (dd : Operand) : RowMatch.Statement (.mtpi dd) :=
  ⟨43, _, rfl, reads_field _ _ _ _ (by decide) (by decide), congrArg _ (operandAt_field _ _ _ (by decide) (by decide))⟩

theorem RowMatch.sxt (dd : Operand) : RowMatch.Statement (.sxt dd) :=
  ⟨44, _, rfl, reads_field _ _ _ _ (by decide) (by decide), congrArg _ (operandAt_field _ _ _ (by decide) (by decide))⟩

theorem RowMatch.illegalCsm (x : BitVec 6) : RowMatch.Statement (.illegalCsm x) :=
  ⟨45, _, rfl, reads_field _ _ _ _ (by decide) (by decide), congrArg _ (extract_field _ _ _ (by decide) (by decide))⟩

theorem RowMatch.illegal007100 (x : BitVec 6) : RowMatch.Statement (.illegal007100 x) :=
  ⟨46, _, rfl, reads_field _ _ _ _ (by decide) (by decide), congrArg _ (extract_field _ _ _ (by decide) (by decide))⟩

theorem RowMatch.illegalTstset (x : BitVec 6) : RowMatch.Statement (.illegalTstset x) :=
  ⟨47, _, rfl, reads_field _ _ _ _ (by decide) (by decide), congrArg _ (extract_field _ _ _ (by decide) (by decide))⟩

theorem RowMatch.illegalWrtlck (x : BitVec 6) : RowMatch.Statement (.illegalWrtlck x) :=
  ⟨48, _, rfl, reads_field _ _ _ _ (by decide) (by decide), congrArg _ (extract_field _ _ _ (by decide) (by decide))⟩

theorem RowMatch.illegal007400 (x : BitVec 8) : RowMatch.Statement (.illegal007400 x) :=
  ⟨49, _, rfl, reads_field _ _ _ _ (by decide) (by decide), congrArg _ (extract_field _ _ _ (by decide) (by decide))⟩

theorem RowMatch.mov (ss : Operand) (dd : Operand) : RowMatch.Statement (.mov ss dd) :=
  ⟨50, _, rfl, reads_fields _ _ _ _ _ _ (by decide) (by decide) (by decide),
    congrArg₂ _ (operandAt_high _ _ _ _ _ (by decide) (by decide) (by decide)) (operandAt_low _ _ _ _ _ (by decide) (by decide) (by decide))⟩

theorem RowMatch.cmp (ss : Operand) (dd : Operand) : RowMatch.Statement (.cmp ss dd) :=
  ⟨51, _, rfl, reads_fields _ _ _ _ _ _ (by decide) (by decide) (by decide),
    congrArg₂ _ (operandAt_high _ _ _ _ _ (by decide) (by decide) (by decide)) (operandAt_low _ _ _ _ _ (by decide) (by decide) (by decide))⟩

theorem RowMatch.bit (ss : Operand) (dd : Operand) : RowMatch.Statement (.bit ss dd) :=
  ⟨52, _, rfl, reads_fields _ _ _ _ _ _ (by decide) (by decide) (by decide),
    congrArg₂ _ (operandAt_high _ _ _ _ _ (by decide) (by decide) (by decide)) (operandAt_low _ _ _ _ _ (by decide) (by decide) (by decide))⟩

theorem RowMatch.bic (ss : Operand) (dd : Operand) : RowMatch.Statement (.bic ss dd) :=
  ⟨53, _, rfl, reads_fields _ _ _ _ _ _ (by decide) (by decide) (by decide),
    congrArg₂ _ (operandAt_high _ _ _ _ _ (by decide) (by decide) (by decide)) (operandAt_low _ _ _ _ _ (by decide) (by decide) (by decide))⟩

theorem RowMatch.bis (ss : Operand) (dd : Operand) : RowMatch.Statement (.bis ss dd) :=
  ⟨54, _, rfl, reads_fields _ _ _ _ _ _ (by decide) (by decide) (by decide),
    congrArg₂ _ (operandAt_high _ _ _ _ _ (by decide) (by decide) (by decide)) (operandAt_low _ _ _ _ _ (by decide) (by decide) (by decide))⟩

theorem RowMatch.add (ss : Operand) (dd : Operand) : RowMatch.Statement (.add ss dd) :=
  ⟨55, _, rfl, reads_fields _ _ _ _ _ _ (by decide) (by decide) (by decide),
    congrArg₂ _ (operandAt_high _ _ _ _ _ (by decide) (by decide) (by decide)) (operandAt_low _ _ _ _ _ (by decide) (by decide) (by decide))⟩

theorem RowMatch.mul (r : Reg) (ss : Operand) : RowMatch.Statement (.mul r ss) :=
  ⟨56, _, rfl, reads_fields _ _ _ _ _ _ (by decide) (by decide) (by decide),
    congrArg₂ _ (regAt_high _ _ _ _ _ (by decide) (by decide) (by decide)) (operandAt_low _ _ _ _ _ (by decide) (by decide) (by decide))⟩

theorem RowMatch.div (r : Reg) (ss : Operand) : RowMatch.Statement (.div r ss) :=
  ⟨57, _, rfl, reads_fields _ _ _ _ _ _ (by decide) (by decide) (by decide),
    congrArg₂ _ (regAt_high _ _ _ _ _ (by decide) (by decide) (by decide)) (operandAt_low _ _ _ _ _ (by decide) (by decide) (by decide))⟩

theorem RowMatch.ash (r : Reg) (ss : Operand) : RowMatch.Statement (.ash r ss) :=
  ⟨58, _, rfl, reads_fields _ _ _ _ _ _ (by decide) (by decide) (by decide),
    congrArg₂ _ (regAt_high _ _ _ _ _ (by decide) (by decide) (by decide)) (operandAt_low _ _ _ _ _ (by decide) (by decide) (by decide))⟩

theorem RowMatch.ashc (r : Reg) (ss : Operand) : RowMatch.Statement (.ashc r ss) :=
  ⟨59, _, rfl, reads_fields _ _ _ _ _ _ (by decide) (by decide) (by decide),
    congrArg₂ _ (regAt_high _ _ _ _ _ (by decide) (by decide) (by decide)) (operandAt_low _ _ _ _ _ (by decide) (by decide) (by decide))⟩

theorem RowMatch.xor (r : Reg) (dd : Operand) : RowMatch.Statement (.xor r dd) :=
  ⟨60, _, rfl, reads_fields _ _ _ _ _ _ (by decide) (by decide) (by decide),
    congrArg₂ _ (regAt_high _ _ _ _ _ (by decide) (by decide) (by decide)) (operandAt_low _ _ _ _ _ (by decide) (by decide) (by decide))⟩

theorem RowMatch.illegalFis (x : BitVec 9) : RowMatch.Statement (.illegalFis x) :=
  ⟨61, _, rfl, reads_field _ _ _ _ (by decide) (by decide), congrArg _ (extract_field _ _ _ (by decide) (by decide))⟩

theorem RowMatch.illegalCis (x : BitVec 9) : RowMatch.Statement (.illegalCis x) :=
  ⟨62, _, rfl, reads_field _ _ _ _ (by decide) (by decide), congrArg _ (extract_field _ _ _ (by decide) (by decide))⟩

theorem RowMatch.sob (r : Reg) (nn : BitVec 6) : RowMatch.Statement (.sob r nn) :=
  ⟨63, _, rfl, reads_fields _ _ _ _ _ _ (by decide) (by decide) (by decide),
    congrArg₂ _ (regAt_high _ _ _ _ _ (by decide) (by decide) (by decide)) (extract_low _ _ _ _ _ (by decide) (by decide) (by decide))⟩

theorem RowMatch.bpl (nn : BitVec 8) : RowMatch.Statement (.bpl nn) :=
  ⟨64, _, rfl, reads_field _ _ _ _ (by decide) (by decide), congrArg _ (extract_field _ _ _ (by decide) (by decide))⟩

theorem RowMatch.bmi (nn : BitVec 8) : RowMatch.Statement (.bmi nn) :=
  ⟨65, _, rfl, reads_field _ _ _ _ (by decide) (by decide), congrArg _ (extract_field _ _ _ (by decide) (by decide))⟩

theorem RowMatch.bhi (nn : BitVec 8) : RowMatch.Statement (.bhi nn) :=
  ⟨66, _, rfl, reads_field _ _ _ _ (by decide) (by decide), congrArg _ (extract_field _ _ _ (by decide) (by decide))⟩

theorem RowMatch.blos (nn : BitVec 8) : RowMatch.Statement (.blos nn) :=
  ⟨67, _, rfl, reads_field _ _ _ _ (by decide) (by decide), congrArg _ (extract_field _ _ _ (by decide) (by decide))⟩

theorem RowMatch.bvc (nn : BitVec 8) : RowMatch.Statement (.bvc nn) :=
  ⟨68, _, rfl, reads_field _ _ _ _ (by decide) (by decide), congrArg _ (extract_field _ _ _ (by decide) (by decide))⟩

theorem RowMatch.bvs (nn : BitVec 8) : RowMatch.Statement (.bvs nn) :=
  ⟨69, _, rfl, reads_field _ _ _ _ (by decide) (by decide), congrArg _ (extract_field _ _ _ (by decide) (by decide))⟩

theorem RowMatch.bcc (nn : BitVec 8) : RowMatch.Statement (.bcc nn) :=
  ⟨70, _, rfl, reads_field _ _ _ _ (by decide) (by decide), congrArg _ (extract_field _ _ _ (by decide) (by decide))⟩

theorem RowMatch.bcs (nn : BitVec 8) : RowMatch.Statement (.bcs nn) :=
  ⟨71, _, rfl, reads_field _ _ _ _ (by decide) (by decide), congrArg _ (extract_field _ _ _ (by decide) (by decide))⟩

theorem RowMatch.emt (nn : BitVec 8) : RowMatch.Statement (.emt nn) :=
  ⟨72, _, rfl, reads_field _ _ _ _ (by decide) (by decide), congrArg _ (extract_field _ _ _ (by decide) (by decide))⟩

theorem RowMatch.sys (nn : BitVec 8) : RowMatch.Statement (.sys nn) :=
  ⟨73, _, rfl, reads_field _ _ _ _ (by decide) (by decide), congrArg _ (extract_field _ _ _ (by decide) (by decide))⟩

theorem RowMatch.clrb (dd : Operand) : RowMatch.Statement (.clrb dd) :=
  ⟨74, _, rfl, reads_field _ _ _ _ (by decide) (by decide), congrArg _ (operandAt_field _ _ _ (by decide) (by decide))⟩

theorem RowMatch.comb (dd : Operand) : RowMatch.Statement (.comb dd) :=
  ⟨75, _, rfl, reads_field _ _ _ _ (by decide) (by decide), congrArg _ (operandAt_field _ _ _ (by decide) (by decide))⟩

theorem RowMatch.incb (dd : Operand) : RowMatch.Statement (.incb dd) :=
  ⟨76, _, rfl, reads_field _ _ _ _ (by decide) (by decide), congrArg _ (operandAt_field _ _ _ (by decide) (by decide))⟩

theorem RowMatch.decb (dd : Operand) : RowMatch.Statement (.decb dd) :=
  ⟨77, _, rfl, reads_field _ _ _ _ (by decide) (by decide), congrArg _ (operandAt_field _ _ _ (by decide) (by decide))⟩

theorem RowMatch.negb (dd : Operand) : RowMatch.Statement (.negb dd) :=
  ⟨78, _, rfl, reads_field _ _ _ _ (by decide) (by decide), congrArg _ (operandAt_field _ _ _ (by decide) (by decide))⟩

theorem RowMatch.adcb (dd : Operand) : RowMatch.Statement (.adcb dd) :=
  ⟨79, _, rfl, reads_field _ _ _ _ (by decide) (by decide), congrArg _ (operandAt_field _ _ _ (by decide) (by decide))⟩

theorem RowMatch.sbcb (dd : Operand) : RowMatch.Statement (.sbcb dd) :=
  ⟨80, _, rfl, reads_field _ _ _ _ (by decide) (by decide), congrArg _ (operandAt_field _ _ _ (by decide) (by decide))⟩

theorem RowMatch.tstb (dd : Operand) : RowMatch.Statement (.tstb dd) :=
  ⟨81, _, rfl, reads_field _ _ _ _ (by decide) (by decide), congrArg _ (operandAt_field _ _ _ (by decide) (by decide))⟩

theorem RowMatch.rorb (dd : Operand) : RowMatch.Statement (.rorb dd) :=
  ⟨82, _, rfl, reads_field _ _ _ _ (by decide) (by decide), congrArg _ (operandAt_field _ _ _ (by decide) (by decide))⟩

theorem RowMatch.rolb (dd : Operand) : RowMatch.Statement (.rolb dd) :=
  ⟨83, _, rfl, reads_field _ _ _ _ (by decide) (by decide), congrArg _ (operandAt_field _ _ _ (by decide) (by decide))⟩

theorem RowMatch.asrb (dd : Operand) : RowMatch.Statement (.asrb dd) :=
  ⟨84, _, rfl, reads_field _ _ _ _ (by decide) (by decide), congrArg _ (operandAt_field _ _ _ (by decide) (by decide))⟩

theorem RowMatch.aslb (dd : Operand) : RowMatch.Statement (.aslb dd) :=
  ⟨85, _, rfl, reads_field _ _ _ _ (by decide) (by decide), congrArg _ (operandAt_field _ _ _ (by decide) (by decide))⟩

theorem RowMatch.illegalMtps (x : BitVec 6) : RowMatch.Statement (.illegalMtps x) :=
  ⟨86, _, rfl, reads_field _ _ _ _ (by decide) (by decide), congrArg _ (extract_field _ _ _ (by decide) (by decide))⟩

theorem RowMatch.illegalMfpd (x : BitVec 6) : RowMatch.Statement (.illegalMfpd x) :=
  ⟨87, _, rfl, reads_field _ _ _ _ (by decide) (by decide), congrArg _ (extract_field _ _ _ (by decide) (by decide))⟩

theorem RowMatch.illegalMtpd (x : BitVec 6) : RowMatch.Statement (.illegalMtpd x) :=
  ⟨88, _, rfl, reads_field _ _ _ _ (by decide) (by decide), congrArg _ (extract_field _ _ _ (by decide) (by decide))⟩

theorem RowMatch.illegalMfps (x : BitVec 6) : RowMatch.Statement (.illegalMfps x) :=
  ⟨89, _, rfl, reads_field _ _ _ _ (by decide) (by decide), congrArg _ (extract_field _ _ _ (by decide) (by decide))⟩

theorem RowMatch.illegal107000 (x : BitVec 9) : RowMatch.Statement (.illegal107000 x) :=
  ⟨90, _, rfl, reads_field _ _ _ _ (by decide) (by decide), congrArg _ (extract_field _ _ _ (by decide) (by decide))⟩

theorem RowMatch.movb (ss : Operand) (dd : Operand) : RowMatch.Statement (.movb ss dd) :=
  ⟨91, _, rfl, reads_fields _ _ _ _ _ _ (by decide) (by decide) (by decide),
    congrArg₂ _ (operandAt_high _ _ _ _ _ (by decide) (by decide) (by decide)) (operandAt_low _ _ _ _ _ (by decide) (by decide) (by decide))⟩

theorem RowMatch.cmpb (ss : Operand) (dd : Operand) : RowMatch.Statement (.cmpb ss dd) :=
  ⟨92, _, rfl, reads_fields _ _ _ _ _ _ (by decide) (by decide) (by decide),
    congrArg₂ _ (operandAt_high _ _ _ _ _ (by decide) (by decide) (by decide)) (operandAt_low _ _ _ _ _ (by decide) (by decide) (by decide))⟩

theorem RowMatch.bitb (ss : Operand) (dd : Operand) : RowMatch.Statement (.bitb ss dd) :=
  ⟨93, _, rfl, reads_fields _ _ _ _ _ _ (by decide) (by decide) (by decide),
    congrArg₂ _ (operandAt_high _ _ _ _ _ (by decide) (by decide) (by decide)) (operandAt_low _ _ _ _ _ (by decide) (by decide) (by decide))⟩

theorem RowMatch.bicb (ss : Operand) (dd : Operand) : RowMatch.Statement (.bicb ss dd) :=
  ⟨94, _, rfl, reads_fields _ _ _ _ _ _ (by decide) (by decide) (by decide),
    congrArg₂ _ (operandAt_high _ _ _ _ _ (by decide) (by decide) (by decide)) (operandAt_low _ _ _ _ _ (by decide) (by decide) (by decide))⟩

theorem RowMatch.bisb (ss : Operand) (dd : Operand) : RowMatch.Statement (.bisb ss dd) :=
  ⟨95, _, rfl, reads_fields _ _ _ _ _ _ (by decide) (by decide) (by decide),
    congrArg₂ _ (operandAt_high _ _ _ _ _ (by decide) (by decide) (by decide)) (operandAt_low _ _ _ _ _ (by decide) (by decide) (by decide))⟩

theorem RowMatch.sub (ss : Operand) (dd : Operand) : RowMatch.Statement (.sub ss dd) :=
  ⟨96, _, rfl, reads_fields _ _ _ _ _ _ (by decide) (by decide) (by decide),
    congrArg₂ _ (operandAt_high _ _ _ _ _ (by decide) (by decide) (by decide)) (operandAt_low _ _ _ _ _ (by decide) (by decide) (by decide))⟩

theorem RowMatch.illegalFp11 (x : BitVec 12) : RowMatch.Statement (.illegalFp11 x) :=
  ⟨97, _, rfl, reads_field _ _ _ _ (by decide) (by decide), congrArg _ (extract_field _ _ _ (by decide) (by decide))⟩

end Sys2Proof.Laws
end

