-- ==== Sys2Proof/Laws/Reset.lean ====
section
/-! SUPPORT. What loading a register of the I/O page and RESET_EFFECT can do (40 R146). -/

namespace Sys2Proof.Machine

/-! ## Loading a register -/

/-- The state with a register of the I/O page holding a word: what `ioLoad` leaves where it does not refuse. -/
def State.withIo (s : State) (r : IoReg) (v : Word) : State :=
  match r with
  | .pdr mode page => s.setPdr mode page v
  | .par mode page => s.setPar mode page v
  | .switches => { s with dr := v }
  | .mmr0 => { s with mmr0 := v }
  | .mmr2 => { s with mmr2 := v }
  | .psw => { s with psw := v }

theorem and_word_ones (v : Word) : v &&& 0o177777 = v := BitVec.and_allOnes

/-- A load puts the bits the register has into it, but for a reserved mode in the PSW (10 R26). -/
theorem ioLoad_apply (r : IoReg) (v : Word) (s : State) :
    ioLoad r v s = if r = .psw ∧ pswWritable v = false then .error (.refusal .reservedMode) s
      else .ok () (s.withIo r (v &&& ioBits r)) := by
  cases r
  case psw => cases h : pswWritable v <;> simp [ioLoad, h, State.withIo, ioBits, pswRead]
  all_goals
    simp only [ioLoad, State.withIo, ioBits, pdrMask, parMask, mmr0Mask, reduceCtorEq, false_and, if_false, and_word_ones]

theorem withIo_ioHeld (s : State) (r r' : IoReg) (v : Word) :
    (s.withIo r v).ioHeld r' = if r' = r then v else s.ioHeld r' := by
  cases r <;> cases r' <;> first | rfl | simp [State.withIo, State.ioHeld, setPdr_pdr, setPar_par]

/-! ## RESET_EFFECT -/

/-- Where the actions on registers complete, they leave this behind. -/
structure RegistersReset (l : List RegisterReset) (s t : State) : Prop where
  cells : ∀ c, t.cell c = s.cell c
  pc : t.pc = s.pc
  mem : t.mem = s.mem
  sr : t.sr = s.sr
  switchMoves : t.switchMoves = s.switchMoves
  pending : t.pending = s.pending
  run : t.run = s.run
  traceInhibit : t.traceInhibit = s.traceInhibit
  yellowPending : t.yellowPending = s.yellowPending
  ia : t.ia = s.ia
  trapTaken : t.trapTaken = s.trapTaken
  cfg : t.cfg = s.cfg
  unlisted : ∀ r, r ∉ l.map (·.reg) → t.ioHeld r = s.ioHeld r

theorem registersReset_refl (s : State) : RegistersReset [] s s := by
  constructor <;> intros <;> rfl

theorem withIo_registersReset (s : State) (a : RegisterReset) (v : Word) : RegistersReset [a] s (s.withIo a.reg v) where
  cells := fun c => by cases h : a.reg <;> cases c <;> simp [State.withIo, State.cell]
  pc := by cases h : a.reg <;> simp [State.withIo]
  mem := by cases h : a.reg <;> simp [State.withIo]
  sr := by cases h : a.reg <;> simp [State.withIo]
  switchMoves := by cases h : a.reg <;> simp [State.withIo]
  pending := by cases h : a.reg <;> simp [State.withIo]
  run := by cases h : a.reg <;> simp [State.withIo]
  traceInhibit := by cases h : a.reg <;> simp [State.withIo]
  yellowPending := by cases h : a.reg <;> simp [State.withIo]
  ia := by cases h : a.reg <;> simp [State.withIo]
  trapTaken := by cases h : a.reg <;> simp [State.withIo]
  cfg := by cases h : a.reg <;> simp [State.withIo]
  unlisted := fun r hr => by
    rw [withIo_ioHeld, if_neg]
    simpa using hr

theorem registersReset_trans {l m : List RegisterReset} {s t u : State} (h : RegistersReset l s t) (g : RegistersReset m t u) :
    RegistersReset (l ++ m) s u where
  cells := fun c => (g.cells c).trans (h.cells c)
  pc := g.pc.trans h.pc
  mem := g.mem.trans h.mem
  sr := g.sr.trans h.sr
  switchMoves := g.switchMoves.trans h.switchMoves
  pending := g.pending.trans h.pending
  run := g.run.trans h.run
  traceInhibit := g.traceInhibit.trans h.traceInhibit
  yellowPending := g.yellowPending.trans h.yellowPending
  ia := g.ia.trans h.ia
  trapTaken := g.trapTaken.trans h.trapTaken
  cfg := g.cfg.trans h.cfg
  unlisted := fun r hr => by
    rw [List.map_append, List.mem_append, not_or] at hr
    rw [g.unlisted r hr.2, h.unlisted r hr.1]

/-- The value an action puts into its register: a free one has been drawn, or none. -/
theorem actionValue_ok (a : RegisterAction) (old : Word) (s : State) :
    ∃ v k, actionValue a old s = .ok v { s with draws := s.draws + k } ∧
      ∀ keep value, a = .load keep value → v = ((old &&& keep) ||| value) := by
  cases a with
  | load keep value =>
    refine ⟨(old &&& keep) ||| value, 0, rfl, ?_⟩
    intro k v h
    cases h
    rfl
  | anyValue => exact ⟨_, 1, rfl, by intro k v h; cases h⟩

/-- One action: the register loaded, or a reserved mode refused with nothing done. -/
theorem resetRegister_cases (a : RegisterReset) (s : State) :
    ∃ v k, (∀ keep value, a.action = .load keep value → v = ((s.ioOld a.reg &&& keep) ||| value)) ∧
      resetRegister a s = if a.reg = .psw ∧ pswWritable v = false then
          .error (.refusal .reservedMode) { s with draws := s.draws + k }
        else .ok () (({ s with draws := s.draws + k } : State).withIo a.reg (v &&& ioBits a.reg)) := by
  obtain ⟨v, k, h, hv⟩ := actionValue_ok a.action (s.ioOld a.reg) s
  refine ⟨v, k, hv, ?_⟩
  rw [resetRegister, bind_of_ok (get_apply s), bind_of_ok h, ioLoad_apply]

theorem draws_registersReset (s : State) (k : Nat) : RegistersReset [] s { s with draws := s.draws + k } := by
  constructor
  case cells => intro c; cases c <;> rfl
  case unlisted => intro r _; cases r <;> rfl
  all_goals rfl

theorem resetRegister_ok {a : RegisterReset} {s t : State} (h : resetRegister a s = .ok () t) :
    RegistersReset [a] s t ∧ ∃ v, t.ioHeld a.reg = v &&& ioBits a.reg ∧ (a.reg = .psw → pswWritable v = true) ∧
      ∀ keep value, a.action = .load keep value → v = ((s.ioOld a.reg &&& keep) ||| value) := by
  obtain ⟨v, k, hv, he⟩ := resetRegister_cases a s
  rw [he] at h
  split at h
  · cases h
  · rename_i hw
    cases h
    refine ⟨registersReset_trans (draws_registersReset s k) (withIo_registersReset _ a _), v, ?_, ?_, hv⟩
    · rw [withIo_ioHeld, if_pos rfl]
    · intro hp
      simpa [hp] using hw

theorem resetRegisters_ok {l : List RegisterReset} {s t : State} (h : resetRegisters l s = .ok () t) : RegistersReset l s t := by
  induction l generalizing s with
  | nil => cases h; exact registersReset_refl _
  | cons a rest ih =>
    obtain ⟨_, u, h1, h2⟩ := bind_eq_ok.mp h
    exact registersReset_trans (resetRegister_ok h1).1 (ih h2)

/-- The actions on registers complete where none of them writes the PSW. -/
theorem resetRegisters_completes {l : List RegisterReset} (h : ∀ a ∈ l, a.reg ≠ .psw) (s : State) :
    ∃ t, resetRegisters l s = .ok () t := by
  induction l generalizing s with
  | nil => exact ⟨_, rfl⟩
  | cons a rest ih =>
    obtain ⟨v, k, -, he⟩ := resetRegister_cases a s
    rw [if_neg (by simp [h a (by simp)])] at he
    obtain ⟨t, ht⟩ := ih (fun b hb => h b (List.mem_cons_of_mem _ hb)) _
    exact ⟨t, (bind_of_ok he).trans ht⟩

/-- RESET_EFFECT: the requests withdrawn, then the registers (40 R146). -/
theorem resetDevices_apply (s : State) :
    resetDevices s = resetRegisters s.cfg.resetEffect.registers
      { s with pending := requestsLeft s.cfg.resetEffect.withdraw s.pending } := by
  rw [resetDevices, bind_of_ok (get_apply s), bind_of_ok (set_apply _ s)]

end Sys2Proof.Machine
end

