-- ==== Sys2Proof/Tests/Slice0.lean ====
section
/-! SUPPORT. Tests: what WellFormed refuses, the decoding of written-out words, single steps (expected results from
spec/95_test_vectors.md, the number of the vector in each name), and for every statement with hypotheses a state and operands that
meet them. -/

open Sys2Proof Sys2Proof.Machine

namespace Sys2Proof.Tests

/-! ## Helpers -/

/-- Words placed in memory. -/
def put (words : List (Nat × Word)) (s : State) : State := words.foldl (fun s p => s.putWord p.1 p.2) s

/-- The words of a program, from an address on. -/
def code : Nat → List Word → List (Nat × Word)
  | _, [] => []
  | a, w :: rest => (a, w) :: code (a + 2) rest

/-- The common start state of 95 section 3. -/
def common : State := { State.reset with pc := 0o1000, ksp := 0o1000, usp := 0o10000, psw := 0 }

/-- A value of the next state, where there is one. -/
def after {α : Type} (f : State → α) : Result → Option α
  | .next s => some (f s)
  | .fault _ => none
  | .refused _ => none

/-- One cycle from a state with these words at 01000. -/
def runs {α : Type} (words : List Word) (s : State) (f : State → α) : Option α := after f (step (put (code 0o1000 words) s))

/-- A register operand. -/
def rg (r : Reg) : Operand := ⟨.register, r⟩

/-! ## WellFormed: a mode-0 destination of `jmp` and `jsr` is no instruction of theirs (30 R124) -/

theorem test_wellFormed_refuses_jmp_register : (Instr.jmp ⟨.register, .r1⟩).wellFormed = false := by decide

theorem test_wellFormed_refuses_jsr_register : (Instr.jsr .r5 ⟨.register, .r1⟩).wellFormed = false := by decide

theorem test_wellFormed_accepts : (Instr.jmp ⟨.indirect, .r1⟩).wellFormed = true ∧ (Instr.jsr .r5 ⟨.index, .pc⟩).wellFormed = true := by
  decide

/-! ## Decoding: one word for every constructor, written out from its encoding (30 R101 to R122, 95 section 2) -/

theorem test_decode_special :
    decodeWord 0o000000 = some (.halt) ∧
    decodeWord 0o000001 = some (.wait) ∧
    decodeWord 0o000002 = some (.rti) ∧
    decodeWord 0o000003 = some (.bpt) ∧
    decodeWord 0o000004 = some (.iot) ∧
    decodeWord 0o000005 = some (.reset) ∧
    decodeWord 0o000006 = some (.rtt) ∧
    decodeWord 0o104022 = some (.emt 0o22) ∧
    decodeWord 0o104404 = some (.sys 4) := by decide

theorem test_decode_codes :
    decodeWord 0o000243 = some (.clcc 0b0011) ∧
    decodeWord 0o000261 = some (.secc 0b0001) := by decide

theorem test_decode_word_single :
    decodeWord 0o000311 = some (.swab ⟨.indirect, .r1⟩) ∧
    decodeWord 0o005021 = some (.clr ⟨.autoInc, .r1⟩) ∧
    decodeWord 0o005137 = some (.com ⟨.autoIncIndirect, .pc⟩) ∧
    decodeWord 0o005246 = some (.inc ⟨.autoDec, .sp⟩) ∧
    decodeWord 0o005354 = some (.dec ⟨.autoDecIndirect, .r4⟩) ∧
    decodeWord 0o005463 = some (.neg ⟨.index, .r3⟩) ∧
    decodeWord 0o005572 = some (.adc ⟨.indexIndirect, .r2⟩) ∧
    decodeWord 0o005605 = some (.sbc ⟨.register, .r5⟩) ∧
    decodeWord 0o005710 = some (.tst ⟨.indirect, .r0⟩) ∧
    decodeWord 0o006001 = some (.ror ⟨.register, .r1⟩) ∧
    decodeWord 0o006122 = some (.rol ⟨.autoInc, .r2⟩) ∧
    decodeWord 0o006243 = some (.asr ⟨.autoDec, .r3⟩) ∧
    decodeWord 0o006364 = some (.asl ⟨.index, .r4⟩) ∧
    decodeWord 0o006510 = some (.mfpi ⟨.indirect, .r0⟩) ∧
    decodeWord 0o006606 = some (.mtpi ⟨.register, .sp⟩) ∧
    decodeWord 0o006703 = some (.sxt ⟨.register, .r3⟩) := by decide

theorem test_decode_byte_single :
    decodeWord 0o105021 = some (.clrb ⟨.autoInc, .r1⟩) ∧
    decodeWord 0o105137 = some (.comb ⟨.autoIncIndirect, .pc⟩) ∧
    decodeWord 0o105246 = some (.incb ⟨.autoDec, .sp⟩) ∧
    decodeWord 0o105354 = some (.decb ⟨.autoDecIndirect, .r4⟩) ∧
    decodeWord 0o105463 = some (.negb ⟨.index, .r3⟩) ∧
    decodeWord 0o105572 = some (.adcb ⟨.indexIndirect, .r2⟩) ∧
    decodeWord 0o105605 = some (.sbcb ⟨.register, .r5⟩) ∧
    decodeWord 0o105710 = some (.tstb ⟨.indirect, .r0⟩) ∧
    decodeWord 0o106001 = some (.rorb ⟨.register, .r1⟩) ∧
    decodeWord 0o106122 = some (.rolb ⟨.autoInc, .r2⟩) ∧
    decodeWord 0o106243 = some (.asrb ⟨.autoDec, .r3⟩) ∧
    decodeWord 0o106364 = some (.aslb ⟨.index, .r4⟩) := by decide

theorem test_decode_two_operand :
    decodeWord 0o016146 = some (.mov ⟨.index, .r1⟩ ⟨.autoDec, .sp⟩) ∧
    decodeWord 0o112703 = some (.movb ⟨.autoInc, .pc⟩ ⟨.register, .r3⟩) ∧
    decodeWord 0o020102 = some (.cmp ⟨.register, .r1⟩ ⟨.register, .r2⟩) ∧
    decodeWord 0o122223 = some (.cmpb ⟨.autoInc, .r2⟩ ⟨.autoInc, .r3⟩) ∧
    decodeWord 0o030415 = some (.bit ⟨.register, .r4⟩ ⟨.indirect, .r5⟩) ∧
    decodeWord 0o130102 = some (.bitb ⟨.register, .r1⟩ ⟨.register, .r2⟩) ∧
    decodeWord 0o042702 = some (.bic ⟨.autoInc, .pc⟩ ⟨.register, .r2⟩) ∧
    decodeWord 0o140102 = some (.bicb ⟨.register, .r1⟩ ⟨.register, .r2⟩) ∧
    decodeWord 0o050102 = some (.bis ⟨.register, .r1⟩ ⟨.register, .r2⟩) ∧
    decodeWord 0o150102 = some (.bisb ⟨.register, .r1⟩ ⟨.register, .r2⟩) ∧
    decodeWord 0o062616 = some (.add ⟨.autoInc, .sp⟩ ⟨.indirect, .sp⟩) ∧
    decodeWord 0o160102 = some (.sub ⟨.register, .r1⟩ ⟨.register, .r2⟩) ∧
    decodeWord 0o074201 = some (.xor .r2 ⟨.register, .r1⟩) := by decide

theorem test_decode_eis :
    decodeWord 0o070201 = some (.mul .r2 ⟨.register, .r1⟩) ∧
    decodeWord 0o071066 = some (.div .r0 ⟨.index, .sp⟩) ∧
    decodeWord 0o072027 = some (.ash .r0 ⟨.autoInc, .pc⟩) ∧
    decodeWord 0o073201 = some (.ashc .r2 ⟨.register, .r1⟩) := by decide

theorem test_decode_jumps :
    decodeWord 0o000111 = some (.jmp ⟨.indirect, .r1⟩) ∧
    decodeWord 0o000205 = some (.rts .r5) ∧
    decodeWord 0o004511 = some (.jsr .r5 ⟨.indirect, .r1⟩) ∧
    decodeWord 0o006402 = some (.mark 2) ∧
    decodeWord 0o077202 = some (.sob .r2 2) ∧
    decodeWord 0o000105 = some (.jmpMode0 .r5) ∧
    decodeWord 0o004501 = some (.jsrMode0 .r5 .r1) := by decide

theorem test_decode_branches :
    decodeWord 0o000403 = some (.br 3) ∧
    decodeWord 0o001376 = some (.bne 0o376) ∧
    decodeWord 0o001403 = some (.beq 3) ∧
    decodeWord 0o002003 = some (.bge 3) ∧
    decodeWord 0o002403 = some (.blt 3) ∧
    decodeWord 0o003003 = some (.bgt 3) ∧
    decodeWord 0o003403 = some (.ble 3) ∧
    decodeWord 0o100003 = some (.bpl 3) ∧
    decodeWord 0o100403 = some (.bmi 3) ∧
    decodeWord 0o101003 = some (.bhi 3) ∧
    decodeWord 0o101403 = some (.blos 3) ∧
    decodeWord 0o102003 = some (.bvc 3) ∧
    decodeWord 0o102403 = some (.bvs 3) ∧
    decodeWord 0o103003 = some (.bcc 3) ∧
    decodeWord 0o103777 = some (.bcs 0o377) := by decide

theorem test_decode_illegal :
    decodeWord 0o000007 = some (.illegalMfpt) ∧
    decodeWord 0o000012 = some (.illegal000010 2) ∧
    decodeWord 0o000025 = some (.illegal000020 5) ∧
    decodeWord 0o000077 = some (.illegal000040 0o37) ∧
    decodeWord 0o000213 = some (.illegal000210 3) ∧
    decodeWord 0o000227 = some (.illegal000220 7) ∧
    decodeWord 0o000233 = some (.illegalSpl 3) ∧
    decodeWord 0o007012 = some (.illegalCsm 0o12) ∧
    decodeWord 0o007177 = some (.illegal007100 0o77) ∧
    decodeWord 0o007201 = some (.illegalTstset 1) ∧
    decodeWord 0o007302 = some (.illegalWrtlck 2) ∧
    decodeWord 0o007777 = some (.illegal007400 0o377) ∧
    decodeWord 0o075012 = some (.illegalFis 0o12) ∧
    decodeWord 0o076543 = some (.illegalCis 0o543) ∧
    decodeWord 0o106427 = some (.illegalMtps 0o27) ∧
    decodeWord 0o106510 = some (.illegalMfpd 0o10) ∧
    decodeWord 0o106610 = some (.illegalMtpd 0o10) ∧
    decodeWord 0o106700 = some (.illegalMfps 0) ∧
    decodeWord 0o107321 = some (.illegal107000 0o321) ∧
    decodeWord 0o170011 = some (.illegalFp11 0o11) := by decide

/-- The words reach the decoder low byte first (20 R54); the row gives 16 bits. -/
theorem test_decodeTableWord : decodeTableWord 16 0o012700 = some (.mov ⟨.autoInc, .pc⟩ ⟨.register, .r0⟩) ∧
    decodeBytes [0o300, 0o025] = .ok (.mov ⟨.autoInc, .pc⟩ ⟨.register, .r0⟩, []) := by decide

/-! ## Single steps (95 sections 4 to 9) -/

theorem test_mov_21 : runs [0o010020] { common with r0 := 0o2000 } (fun t => (t.wordAt 0o2000, t.psw)) =
    some (0o2000, 0) := by decide

theorem test_mov_25 : runs [0o016161, 0o000002, 0o000004]
    (put [(0o2002, 0o666), (0o2004, 0)] { common with r1 := 0o2000 })
    (fun t => (t.wordAt 0o2004, t.psw)) = some (0o666, 0) := by decide

theorem test_movb_18 : runs [0o110046] (put [(0o776, 0)] { common with r0 := 0o5555 }) (fun t => (t.wordAt 0o776, t.psw)) =
    some (0o155, 0) := by decide

theorem test_movb_87 : runs [0o112701, 0o000200]
    { common with cfg := { Config.default with byteRegDest := .movbOnly } }
    (fun t => (t.r1, t.psw)) = some (0o177600, 0o10) := by decide

theorem test_add_23 : runs [0o062616]
    (put [(0o774, 0o3), (0o776, 0o4)] { common with ksp := 0o774 })
    (fun t => (t.wordAt 0o776, t.psw)) = some (0o7, 0) := by decide

theorem test_add_105 : runs [0o060001] { common with r0 := 0o100000, r1 := 0o100000 } (fun t => (t.r1, t.psw)) =
    some (0, 0o7) := by decide

theorem test_cl_27 : runs [0o000254] { common with psw := 0o17 } (fun t => t.psw) = some 0o3 := by decide

theorem test_se_30 : runs [0o000263] common (fun t => t.psw) = some 0o3 := by decide

theorem test_swab_34 : runs [0o000300] { common with r0 := 0o377 } (fun t => (t.r0, t.psw)) = some (0o177400, 0o4) := by decide

theorem test_clr_36 : runs [0o005000] { common with r0 := 0o1234, psw := 0o13 } (fun t => (t.r0, t.psw)) =
    some (0, 0o4) := by decide

theorem test_clrb_38 : runs [0o105000]
    { common with r0 := 0o123456, cfg := { Config.default with byteRegDest := .movbOnly } }
    (fun t => (t.r0, t.psw)) = some (0o123400, 0o4) := by decide

theorem test_clrb_39 : runs [0o105011]
    (put [(0o2000, 0o177777)] { common with r1 := 0o2001 })
    (fun t => (t.wordAt 0o2000, t.psw)) = some (0o377, 0o4) := by decide

theorem test_com_40 : runs [0o005100] { common with r0 := 0o13333 } (fun t => (t.r0, t.psw)) = some (0o164444, 0o11) := by decide

theorem test_comb_42 : runs [0o105100] { common with r0 := 0o17 } (fun t => (t.r0, t.psw)) = some (0o177760, 0o11) := by decide

theorem test_inc_43 : runs [0o005200] { common with r0 := 0o77777, psw := 0o1 } (fun t => (t.r0, t.psw)) =
    some (0o100000, 0o13) := by decide

theorem test_incb_45 : runs [0o105211] (put [(0o2000, 0o177)] { common with r1 := 0o2000 }) (fun t => (t.wordAt 0o2000, t.psw)) =
    some (0o200, 0o12) := by decide

theorem test_dec_46 : runs [0o005300] { common with r0 := 0o100000 } (fun t => (t.r0, t.psw)) = some (0o77777, 0o2) := by decide

theorem test_decb_49 : runs [0o105311] (put [(0o2000, 0o200)] { common with r1 := 0o2000 }) (fun t => (t.wordAt 0o2000, t.psw)) =
    some (0o177, 0o2) := by decide

theorem test_neg_51 : runs [0o005400] { common with r0 := 0o100000 } (fun t => t.psw) = some 0o13 := by decide

theorem test_neg_52 : runs [0o005400] { common with r0 := 0, psw := 0o1 } (fun t => t.psw) = some 0o4 := by decide

theorem test_negb_53 : runs [0o105411] (put [(0o2000, 0o200)] { common with r1 := 0o2000 }) (fun t => t.psw) =
    some 0o13 := by decide

theorem test_adc_54 : runs [0o005500] { common with r0 := 0o177777, psw := 0o1 } (fun t => (t.r0, t.psw)) =
    some (0, 0o5) := by decide

theorem test_adc_55 : runs [0o005500] { common with r0 := 0o77777, psw := 0o1 } (fun t => (t.r0, t.psw)) =
    some (0o100000, 0o12) := by decide

theorem test_adcb_57 : runs [0o105511]
    (put [(0o2000, 0o377)] { common with r1 := 0o2000, psw := 0o1 })
    (fun t => (t.wordAt 0o2000, t.psw)) = some (0, 0o5) := by decide

theorem test_sbc_58 : runs [0o005600] { common with r0 := 0, psw := 0o1 } (fun t => (t.r0, t.psw)) =
    some (0o177777, 0o11) := by decide

theorem test_sbc_59 : runs [0o005600] { common with r0 := 0o100000, psw := 0o1 } (fun t => (t.r0, t.psw)) =
    some (0o77777, 0o2) := by decide

theorem test_sbcb_60 : runs [0o105611]
    (put [(0o2000, 0o200)] { common with r1 := 0o2000, psw := 0o1 })
    (fun t => (t.wordAt 0o2000, t.psw)) = some (0o177, 0o2) := by decide

theorem test_tst_61 : runs [0o005700] { common with r0 := 0o100000, psw := 0o3 } (fun t => t.psw) = some 0o10 := by decide

theorem test_tst_176 : runs [0o005720]
    (put [(0o4, 0o4000), (0o6, 0o340)] { common with r0 := 0o2001 })
    (fun t => (t.pc, t.wordAt 0o774)) = some (0o4000, 0o1002) := by decide

theorem test_tstb_62 : runs [0o105721] (put [(0o2000, 0)] { common with r1 := 0o2000 }) (fun t => (t.r1, t.psw)) =
    some (0o2001, 0o4) := by decide

theorem test_ror_63 : runs [0o006000] { common with r0 := 0o1 } (fun t => (t.r0, t.psw)) = some (0, 0o7) := by decide

theorem test_ror_64 : runs [0o006000] { common with r0 := 0o2, psw := 0o1 } (fun t => (t.r0, t.psw)) =
    some (0o100001, 0o12) := by decide

theorem test_rorb_65 : runs [0o106011]
    (put [(0o2000, 0o1)] { common with r1 := 0o2000, psw := 0o1 })
    (fun t => (t.wordAt 0o2000, t.psw)) = some (0o200, 0o11) := by decide

theorem test_rol_66 : runs [0o006100] { common with r0 := 0o100000 } (fun t => (t.r0, t.psw)) = some (0, 0o7) := by decide

theorem test_rol_67 : runs [0o006100] { common with r0 := 0o40000, psw := 0o1 } (fun t => (t.r0, t.psw)) =
    some (0o100001, 0o12) := by decide

theorem test_rolb_68 : runs [0o106111]
    (put [(0o2000, 0o100)] { common with r1 := 0o2000, psw := 0o1 })
    (fun t => (t.wordAt 0o2000, t.psw)) = some (0o201, 0o12) := by decide

theorem test_asr_69 : runs [0o006200] { common with r0 := 0o100001 } (fun t => (t.r0, t.psw)) = some (0o140000, 0o11) := by decide

theorem test_asr_71 : runs [0o006200] { common with r0 := 0o1 } (fun t => (t.r0, t.psw)) = some (0, 0o7) := by decide

theorem test_asrb_72 : runs [0o106211] (put [(0o2000, 0o201)] { common with r1 := 0o2000 }) (fun t => (t.wordAt 0o2000, t.psw)) =
    some (0o300, 0o11) := by decide

theorem test_asl_73 : runs [0o006300] { common with r0 := 0o40000 } (fun t => (t.r0, t.psw)) = some (0o100000, 0o12) := by decide

theorem test_asl_75 : runs [0o006300] { common with r0 := 0o140000 } (fun t => (t.r0, t.psw)) = some (0o100000, 0o11) := by decide

theorem test_aslb_76 : runs [0o106311] (put [(0o2000, 0o200)] { common with r1 := 0o2000 }) (fun t => (t.wordAt 0o2000, t.psw)) =
    some (0, 0o7) := by decide

theorem test_sxt_77 : runs [0o006700] { common with r0 := 0o1234, psw := 0o13 } (fun t => (t.r0, t.psw)) =
    some (0o177777, 0o11) := by decide

theorem test_sxt_78 : runs [0o006700] { common with r0 := 0o1234, psw := 0o2 } (fun t => (t.r0, t.psw)) =
    some (0, 0o4) := by decide

theorem test_mfpi_79 : runs [0o006506] { common with usp := 0o157770, psw := 0o30000 } (fun t => (t.wordAt 0o776, t.psw)) =
    some (0o157770, 0o30010) := by decide

theorem test_mfpi_83 : runs [0o006506] common (fun t => (t.wordAt 0o776, t.psw)) = some (0o1000, 0) := by decide

theorem test_mtpi_80 : runs [0o006606]
    (put [(0o776, 0o4000)] { common with ksp := 0o776, psw := 0o30000 })
    (fun t => (t.usp, t.psw)) = some (0o4000, 0o30000) := by decide

theorem test_mtpi_82 : runs [0o006620]
    (put [(0o776, 0)] { common with r0 := 0o2000, ksp := 0o776, psw := 0o30000 })
    (fun t => (t.wordAt 0o2000, t.psw)) = some (0, 0o30004) := by decide

theorem test_cmp_91 : runs [0o020001] { common with r0 := 0o100000, r1 := 0o1 } (fun t => t.psw) = some 0o2 := by decide

theorem test_cmp_93 : runs [0o020001] { common with r0 := 0o177777, r1 := 0o1 } (fun t => t.psw) = some 0o10 := by decide

theorem test_cmpb_94 : runs [0o120001] { common with r0 := 0o200, r1 := 0o1 } (fun t => t.psw) = some 0o2 := by decide

theorem test_cmpb_95 : runs [0o122223]
    (put [(0o2000, 0o40501)] { common with r2 := 0o2000, r3 := 0o2001 })
    (fun t => (t.r3, t.psw)) = some (0o2002, 0o4) := by decide

theorem test_bit_96 : runs [0o030001] { common with r0 := 0o100000, r1 := 0o177777, psw := 0o3 } (fun t => t.psw) =
    some 0o11 := by decide

theorem test_bitb_97 : runs [0o132710, 0o000001] (put [(0o2000, 0o376)] { common with r0 := 0o2000 }) (fun t => t.psw) =
    some 0o4 := by decide

theorem test_bic_98 : runs [0o040001] { common with r0 := 0o177400, r1 := 0o123456 } (fun t => (t.r1, t.psw)) =
    some (0o56, 0) := by decide

theorem test_bicb_99 : runs [0o142710, 0o000360]
    (put [(0o2000, 0o377)] { common with r0 := 0o2000 })
    (fun t => (t.wordAt 0o2000, t.psw)) = some (0o17, 0) := by decide

theorem test_bis_100 : runs [0o050001] { common with r0 := 0o100000, r1 := 0o1 } (fun t => (t.r1, t.psw)) =
    some (0o100001, 0o10) := by decide

theorem test_bisb_101 : runs [0o152700, 0o000200] common (fun t => (t.r0, t.psw)) = some (0o177600, 0o10) := by decide

theorem test_bisb_102 : runs [0o152700, 0o000200]
    { common with cfg := { Config.default with byteRegDest := .movbOnly } }
    (fun t => (t.r0, t.psw)) = some (0o200, 0o10) := by decide

theorem test_sub_107 : runs [0o160001] { common with r0 := 0o2, r1 := 0o1 } (fun t => (t.r1, t.psw)) =
    some (0o177777, 0o11) := by decide

theorem test_sub_110 : runs [0o160001] { common with r0 := 0o100000, r1 := 0 } (fun t => (t.r1, t.psw)) =
    some (0o100000, 0o13) := by decide

theorem test_mul_111 : runs [0o070001] { common with r0 := 0o3, r1 := 0o177776 } (fun t => (t.r0, t.r1)) =
    some (0o177777, 0o177772) := by decide

theorem test_mul_114 : runs [0o070127, 0o000400] { common with r1 := 0o400 } (fun t => (t.r1, t.psw)) =
    some (0, 0o1) := by decide

theorem test_div_118 : runs [0o071002] { common with r2 := 0o5, r0 := 0o177777, r1 := 0o177757 } (fun t => (t.r0, t.r1)) =
    some (0o177775, 0o177776) := by decide

theorem test_div_119 : runs [0o071002] { common with r1 := 0o7, r0 := 0, r2 := 0o177776 } (fun t => (t.r0, t.r1)) =
    some (0o177775, 0o1) := by decide

theorem test_ash_127 : runs [0o072027, 0o000076] { common with r0 := 0o100003 } (fun t => (t.r0, t.psw)) =
    some (0o160000, 0o11) := by decide

theorem test_ash_131 : runs [0o072027, 0o000040] { common with r0 := 0o100000 } (fun t => (t.r0, t.psw)) =
    some (0o177777, 0o11) := by decide

theorem test_ashc_134 : runs [0o073027, 0o177777] { common with r0 := 0o1, r1 := 0o1 } (fun t => (t.r0, t.r1)) =
    some (0, 0o100000) := by decide

theorem test_ashc_137 : runs [0o073127, 0o000077] { common with r0 := 0o7777, r1 := 0o100001 } (fun t => (t.r1, t.psw)) =
    some (0o140000, 0o11) := by decide

theorem test_xor_138 : runs [0o074001] { common with r0 := 0o125252, r1 := 0o177777, psw := 0o1 } (fun t => (t.r1, t.psw)) =
    some (0o52525, 0o1) := by decide

theorem test_xor_139 : runs [0o074020] (put [(0o2000, 0)] { common with r0 := 0o2000 }) (fun t => (t.wordAt 0o2000, t.psw)) =
    some (0o2002, 0) := by decide

theorem test_jmp_141 : runs [0o000121] { common with r1 := 0o3000 } (fun t => (t.pc, t.r1)) = some (0o3000, 0o3002) := by decide

theorem test_jmp_144 : runs [0o000131] (put [(0o2000, 0o3000)] { common with r1 := 0o2000 }) (fun t => (t.pc, t.r1)) =
    some (0o3000, 0o2002) := by decide

theorem test_jsr_147 : runs [0o004511] { common with r5 := 0o123, r1 := 0o3000, ksp := 0o776 } (fun t => (t.pc, t.wordAt 0o774)) =
    some (0o3000, 0o123) := by decide

theorem test_jsr_148 : runs [0o004736] (put [(0o776, 0o3000)] { common with ksp := 0o776 }) (fun t => (t.pc, t.wordAt 0o776)) =
    some (0o3000, 0o1002) := by decide

theorem test_rts_151 : runs [0o000207] (put [(0o776, 0o1234)] { common with ksp := 0o776 }) (fun t => (t.pc, t.ksp)) =
    some (0o1234, 0o1000) := by decide

theorem test_rts_152 : runs [0o000205] (put [(0o774, 0o123)] { common with r5 := 0o1234, ksp := 0o774 }) (fun t => (t.pc, t.r5)) =
    some (0o1234, 0o123) := by decide

theorem test_sob_153 : runs [0o077002] { common with r0 := 0o3 } (fun t => (t.pc, t.r0)) = some (0o776, 0o2) := by decide

theorem test_sob_155 : runs [0o077002] { common with r0 := 0, psw := 0o17 } (fun t => (t.pc, t.r0)) =
    some (0o776, 0o177777) := by decide

theorem test_mark_157 : runs [0o006402]
    (put [(0o1002, 0o11), (0o1004, 0o22), (0o1006, 0o123)] { common with r5 := 0o500, ksp := 0o1000 })
    (fun t => (t.pc, t.r5)) = some (0o500, 0o123) := by decide

theorem test_halt_158 : runs [0o000000] common (fun t => (t.run, t.pc)) = some (.halted, 0o1002) := by decide

theorem test_halt_159 : runs [0o000000]
    (put [(0o4, 0o4000), (0o6, 0o340)] { common with psw := 0o140000 })
    (fun t => (t.pc, t.wordAt 0o774)) = some (0o4000, 0o1002) := by decide

theorem test_bpt_160 : runs [0o000003]
    (put [(0o14, 0o4020), (0o16, 0o340)] { common with psw := 0o140005 })
    (fun t => (t.pc, t.wordAt 0o774)) = some (0o4020, 0o1002) := by decide

theorem test_iot_161 : runs [0o000004] (put [(0o20, 0o4030), (0o22, 0o341)] common) (fun t => (t.pc, t.wordAt 0o774)) =
    some (0o4030, 0o1002) := by decide

theorem test_emt_162 : runs [0o104022]
    (put [(0o30, 0o4040), (0o32, 0o340)] { common with psw := 0o140000 })
    (fun t => (t.pc, t.wordAt 0o774)) = some (0o4040, 0o1002) := by decide

theorem test_sys_163 : runs [0o104404]
    (put [(0o34, 0o4050), (0o36, 0o357)] { common with psw := 0o140000 })
    (fun t => (t.pc, t.wordAt 0o774)) = some (0o4050, 0o1002) := by decide

theorem test_sys_183 : runs [0o104400]
    (put [(0o4, 0o4000), (0o6, 0o340), (0o34, 0o4050), (0o36, 0o357)] { common with ksp := 0o1001 })
    (fun t => (t.pc, t.wordAt 0)) = some (0o4000, 0o1002) := by decide

theorem test_reset_165 : runs [0o000005] common (fun t => t.psw) = some 0 := by decide

theorem test_rti_167 : runs [0o000002]
    (put [(0o7774, 0o2000), (0o7776, 0o357)] { common with usp := 0o7774, psw := 0o140000 })
    (fun t => (t.pc, t.psw)) = some (0o2000, 0o140017) := by decide

theorem test_rti_168 : runs [0o000002]
    (put [(0o14, 0o4020), (0o16, 0o340), (0o774, 0o2000), (0o776, 0o140020)] { common with ksp := 0o774 })
    (fun t => (t.pc, t.psw)) = some (0o4020, 0o30340) := by decide

theorem test_illegalMfpt_170 : runs [0o000007] (put [(0o10, 0o4010), (0o12, 0o340)] common) (fun t => (t.pc, t.wordAt 0o774)) =
    some (0o4010, 0o1002) := by decide

theorem test_illegalMtps_173 : runs [0o106427, 0o000340]
    (put [(0o10, 0o4010), (0o12, 0o340)] common)
    (fun t => (t.pc, t.wordAt 0o774)) = some (0o4010, 0o1002) := by decide

theorem test_jmpMode0_145 : runs [0o000101]
    (put [(0o10, 0o4000), (0o12, 0o340)] { common with r1 := 0o3000 })
    (fun t => (t.pc, t.wordAt 0o774)) = some (0o4000, 0o1002) := by decide

theorem test_jsrMode0_150 : runs [0o004501]
    (put [(0o10, 0o4000), (0o12, 0o340)] { common with r5 := 0o123 })
    (fun t => (t.pc, t.wordAt 0o774)) = some (0o4000, 0o1002) := by decide

/-- 95 vector 184 and program P7: `wait` suspends. -/
theorem test_wait : runs [0o000001] common (fun t => (t.run, t.pc)) = some (.waiting, 0o1002) := by decide

/-- 95 vector 169, first cycle: `rtt` holds the trace trap off. -/
theorem test_rtt_169 : runs [0o000006] (put [(0o774, 0o2000), (0o776, 0o140020)] { common with ksp := 0o774 })
    (fun t => (t.pc, t.psw)) = some (0o2000, 0o140020) := by decide

/-- 95 vector 120: a zero divisor leaves the registers and sets V and C. -/
theorem test_div_120 : after (fun t => (t.r0, t.r1)) (exec (.div .r0 (rg .r2)) { common with r1 := 7 }) = some (0, 7) := by decide

/-- 95 vectors 180 and 181: the yellow stack trap below 0400, none at 0400. -/
theorem test_yellow_180 : runs [0o010046] (put [(4, 0o4000), (6, 0o340)] { common with r0 := 0o7777, ksp := 0o400 })
    (fun t => (t.pc, t.ksp)) = some (0o4000, 0o372) := by decide

theorem test_yellow_181 : runs [0o010046] { common with r0 := 0o7777, ksp := 0o402 } (fun t => (t.pc, t.ksp)) =
    some (0o1002, 0o400) := by decide

/-! ## Branches: for which condition codes each is taken (95 section 8) -/

/-- The NZVC, as numbers, for which the word at 01000 goes to 01010. -/
def taken (w : Word) : List Nat :=
  (List.range 16).filter fun f => runs [w] { common with psw := BitVec.ofNat 16 f } (·.pc) == some 0o1010

theorem test_br : taken 0o000403 = [0, 1, 2, 3, 4, 5, 6, 7, 8, 9, 10, 11, 12, 13, 14, 15] := by decide

theorem test_bne : taken 0o001003 = [0, 1, 2, 3, 8, 9, 10, 11] := by decide

theorem test_beq : taken 0o001403 = [4, 5, 6, 7, 12, 13, 14, 15] := by decide

theorem test_bge : taken 0o002003 = [0, 1, 4, 5, 10, 11, 14, 15] := by decide

theorem test_blt : taken 0o002403 = [2, 3, 6, 7, 8, 9, 12, 13] := by decide

theorem test_bgt : taken 0o003003 = [0, 1, 10, 11] := by decide

theorem test_ble : taken 0o003403 = [2, 3, 4, 5, 6, 7, 8, 9, 12, 13, 14, 15] := by decide

theorem test_bpl : taken 0o100003 = [0, 1, 2, 3, 4, 5, 6, 7] := by decide

theorem test_bmi : taken 0o100403 = [8, 9, 10, 11, 12, 13, 14, 15] := by decide

theorem test_bhi : taken 0o101003 = [0, 2, 8, 10] := by decide

theorem test_blos : taken 0o101403 = [1, 3, 4, 5, 6, 7, 9, 11, 12, 13, 14, 15] := by decide

theorem test_bvc : taken 0o102003 = [0, 1, 4, 5, 8, 9, 12, 13] := by decide

theorem test_bvs : taken 0o102403 = [2, 3, 6, 7, 10, 11, 14, 15] := by decide

theorem test_bcc : taken 0o103003 = [0, 2, 4, 6, 8, 10, 12, 14] := by decide

theorem test_bcs : taken 0o103403 = [1, 3, 5, 7, 9, 11, 13, 15] := by decide

/-- A branch backwards: nn = 0200 is -128 (95 section 8). -/
theorem test_br_back : runs [0o000600] common (·.pc) = some 0o402 := by decide

/-- `cmp @#177570,@#177570`: the operator moves the switches from 1 to 2 between the two reads (60 R266, 93 U4): 1 - 2 is negative and borrows. -/
theorem test_switches_move : runs [0o023737, 0o177570, 0o177570] { common with sr := 1, switchMoves := [2, 3] }
    (fun t => (t.sr, t.psw)) = some (3, 0o11) := by decide

/-- 70 R292: IMAGE, LAUNCH_PC, SR_VALUE and the initial requests. -/
theorem test_launch :
    let s := State.launch .default { image := [(0o1000, 5)], pc := 0o1000, switches := 7, switchMoves := [8], requests := [⟨5, 0o64⟩] }
    (s.byteAt 0o1000, s.pc, s.sr, s.switchMoves, s.pending) = (5, 0o1000, 7, [8], [⟨5, 0o64⟩]) := by decide

/-- An instruction stored where `step` fetches runs first from reset (log 6). -/
theorem test_withFetchWord : after (fun t => (t.r0, t.pc)) (step (State.reset.withFetchWord 16 0o005200)) = some (1, 2) := by decide

/-! ## Witnesses: states and operands that meet the hypotheses of the statements, at boundary values of their ranges -/

/-- Vectors of 004, 010, 014, 020, 030, 034 and 0250, and a stack at 01000. -/
def vectors : State :=
  put [(0o4, 0o4000), (0o6, 0o340), (0o10, 0o4010), (0o12, 0o340), (0o14, 0o4020), (0o16, 0o340), (0o20, 0o4030), (0o22, 0o341),
    (0o30, 0o4040), (0o32, 0o340), (0o34, 0o4050), (0o36, 0o357), (0o250, 0o4070), (0o252, 0o340)] common

/-- The same in user mode. -/
def vectorsUser : State := { vectors with psw := 0o140000 }

/-- Words at 0776, 02000, 02004 and 03000; R1 points at the first word of 02000 and R4 past it, R2 is odd, R3 and R5 lead where nothing
answers, R0 holds a negative word. -/
def pointing : State :=
  put [(0o776, 0o3000), (0o1000, 4), (0o2000, 0o3000), (0o2004, 0o3000), (0o3000, 0o222)]
    { common with
      r0 := 0o100000, r1 := 0o2000, r2 := 0o2001, r3 := 0o157776, r4 := 0o2002, r5 := 0o157774, ksp := 0o776
      cfg := { Config.default with memTop := 0o100000 } }

/-- The MMU on: user page 0 is memory from 020000 on, read and write, page 1 the same memory, read only; kernel page 0 is memory from 0
on, kernel page 7 the I/O page; the other pages are absent (95 section 10). -/
def mapped : State :=
  { vectors with
    mmr0 := 1
    kernelPar := vectors.kernelPar.set 7 0o7600
    kernelPdr := (vectors.kernelPdr.set 0 0o77406).set 7 0o77406
    userPar := (vectors.userPar.set 0 0o200).set 1 0o200
    userPdr := (vectors.userPdr.set 0 0o77406).set 1 0o77402 }

/-- The same in user mode, the previous mode user, a stack in page 0. -/
def mappedUser : State := { mapped with psw := 0o170000, usp := 0o1000 }

/-- A platform with a device at 0777560 (00 R9). -/
def withDevice : State := { common with cfg := { Config.default with deviceAddrs := [0o777560, 0o777561] } }

/-! ### Encoding -/

theorem witness_DecodeOfEncode : (Instr.mov ⟨.indexIndirect, .pc⟩ ⟨.autoDec, .sp⟩).wellFormed = true ∧
    (Instr.jsr .r5 ⟨.indirect, .r1⟩).wellFormed = true := by decide

/-! ### The cycle -/

/-- The state runs, no request is above IPL, and the word at its PC decodes to `i`, its fetch leaving `s1`. -/
def fetches (s : State) (i : Instr) (s1 : State) : Prop :=
  s.run = .running ∧ (∀ q ∈ s.pending, ¬ pswIPL s.psw < q.br) ∧ i.wellFormed = true ∧
    ∃ w, memReadWordIn s.mode s.pc { s with ia := s.pc, trapTaken := false } = .ok w s1 ∧ decodeWord w = some i

/-- IPL 4 and a request at BR 4: not above it. -/
def incAtIpl4 : State := { put [(0o1000, 0o005200)] common with psw := 0o200, pending := [⟨4, 0o60⟩] }

theorem witness_StepRunsDecodedInstruction_word : ∃ s1, fetches incAtIpl4 (.inc (rg .r0)) s1 :=
  ⟨_, rfl, by decide, rfl, _, rfl, by decide⟩

theorem witness_StepRunsDecodedInstruction_bytes : incAtIpl4.run = .running ∧ (∀ q ∈ incAtIpl4.pending, ¬ pswIPL incAtIpl4.psw < q.br) ∧
    incAtIpl4.pc.getLsbD 0 = false ∧ mmuEnabled incAtIpl4.mmr0 = false ∧
    (incAtIpl4.physAddr incAtIpl4.mode incAtIpl4.pc).toNat < incAtIpl4.cfg.memTop ∧
    decodeBytes [incAtIpl4.byteAt (incAtIpl4.physAddr incAtIpl4.mode incAtIpl4.pc).toNat,
      incAtIpl4.byteAt ((incAtIpl4.physAddr incAtIpl4.mode incAtIpl4.pc).toNat + 1)] = .ok (.inc (rg .r0), []) := by decide

theorem witness_ChecksAfterInstruction_trap : ∃ s1 t, fetches (put [(0o1000, 0o000003)] vectors) .bpt s1 ∧
    exec .bpt { s1 with pc := 0o1002 } = .next t ∧ t.trapTaken = true :=
  ⟨_, _, ⟨rfl, by decide, rfl, _, rfl, by decide⟩, rfl, rfl⟩

theorem witness_ChecksAfterInstruction_halted : ∃ s1 t, fetches (put [(0o1000, 0o000000)] common) .halt s1 ∧
    exec .halt { s1 with pc := 0o1002 } = .next t ∧ t.trapTaken = false ∧ t.run ≠ .running :=
  ⟨_, _, ⟨rfl, by decide, rfl, _, rfl, by decide⟩, rfl, rfl, by decide⟩

theorem witness_ChecksAfterInstruction_yellow : ∃ s1 t,
    fetches { put [(0o1000, 0o010046)] vectors with ksp := 0o400 } (.mov (rg .r0) ⟨.autoDec, .sp⟩) s1 ∧
    exec (.mov (rg .r0) ⟨.autoDec, .sp⟩) { s1 with pc := 0o1002 } = .next t ∧ t.trapTaken = false ∧ t.run = .running ∧
    t.yellowPending = true :=
  ⟨_, _, ⟨rfl, by decide, rfl, _, rfl, by decide⟩, rfl, by decide, by decide, by decide⟩

theorem witness_ChecksAfterInstruction_trace : ∃ s1 t, fetches { put [(0o1000, 0o005200)] vectors with psw := 0o20 } (.inc (rg .r0)) s1 ∧
    exec (.inc (rg .r0)) { s1 with pc := 0o1002 } = .next t ∧ t.trapTaken = false ∧ t.run = .running ∧ t.yellowPending = false ∧
    pswT t.psw = true ∧ t.traceInhibit = false :=
  ⟨_, _, ⟨rfl, by decide, rfl, _, rfl, by decide⟩, rfl, rfl, rfl, rfl, by decide, rfl⟩

theorem witness_ChecksAfterInstruction_inhibited : ∃ s1 t,
    fetches (put [(0o1000, 0o000006), (0o774, 0o2000), (0o776, 0o20)] { common with ksp := 0o774 }) .rtt s1 ∧
    exec .rtt { s1 with pc := 0o1002 } = .next t ∧ t.trapTaken = false ∧ t.run = .running ∧ t.yellowPending = false ∧
    pswT t.psw = true ∧ t.traceInhibit = true :=
  ⟨_, _, ⟨rfl, by decide, rfl, _, rfl, by decide⟩, rfl, by decide, by decide, by decide, by decide, by decide⟩

/-- A fetch fails: at an odd PC, at MEM_TOP where nothing answers, in an absent page. -/
theorem witness_FetchFaultTraps : (∃ s1, memReadWordIn .kernel 0o1001 { common with pc := 0o1001, ia := 0o1001 } = .error (.raised .busError) s1) ∧
    (∃ s1, memReadWordIn .kernel 0o100000 { pointing with pc := 0o100000, ia := 0o100000 } = .error (.raised .busError) s1) ∧
    ∃ s1, memReadWordIn .user 0o40000 { mappedUser with pc := 0o40000, ia := 0o40000 } = .error (.raised .mmuFault) s1 :=
  ⟨⟨_, rfl⟩, ⟨_, rfl⟩, ⟨_, rfl⟩⟩

theorem witness_StoppedProcessorStays : ({ common with run := .halted } : State).run = .halted ∧
    ({ incAtIpl4 with run := .waiting } : State).run = .waiting ∧
    ∀ q ∈ ({ incAtIpl4 with run := .waiting } : State).pending, ¬ pswIPL incAtIpl4.psw < q.br := by decide

theorem witness_InterruptIsAccepted : ({ common with run := .waiting, pending := [⟨1, 0o60⟩, ⟨1, 0o64⟩] } : State).run ≠ .halted ∧
    ∃ q ∈ ({ common with run := .waiting, pending := [⟨1, 0o60⟩, ⟨1, 0o64⟩] } : State).pending, pswIPL common.psw < q.br := by decide

theorem witness_StepKeepsInputs : ∃ t, step { incAtIpl4 with run := .waiting } = .next t := ⟨_, rfl⟩

/-! ### Invariant, protection -/

theorem witness_StepKeepsInv : Inv incAtIpl4 ∧ ∃ t, step incAtIpl4 = .next t := by
  refine ⟨⟨⟨rfl, by decide, by decide, by decide, by decide, by decide, ?_, ?_, by decide⟩, rfl, rfl, rfl⟩, _, rfl⟩ <;>
    intro mode <;> cases mode <;> decide
/-- A page without write permission turns a write down, whatever the offset (20 R74). -/
theorem reasons_of_no_write (b : MmuBounds) (pdr : Word) (off : BitVec 13) (h : pdrW pdr = false) : mmuReasons b pdr off .write ≠ 0 := by
  unfold mmuReasons
  rw [if_pos ⟨rfl, h⟩]
  cases offsetValid b pdr off <;> cases pdrR pdr <;> decide

theorem witness_UserModeIsConfined_confined : Confined mappedUser := by
  refine ⟨by decide, by decide, by decide, fun va h => ?_⟩
  have hw : ∀ page : BitVec 3, page ≠ 0 → pdrW (mappedUser.pdr .user page) = false := by decide
  by_cases hp : pageOf va = 0
  · have hu : pdrU (mappedUser.pdr .user (pageOf va)) = false := by rw [hp]; decide
    have hpar : parBase (mappedUser.par .user (pageOf va)) = 0o20000 := by rw [hp]; decide
    have hoff := (offsetOf va).isLt
    have ha : mappedUser.physAddr .user va = 0o20000 + (offsetOf va).setWidth 18 := by
      rw [← hpar]
      change mmuMap .sourceLiteral _ _ _ = _
      rw [mmuMap, hu]
      rfl
    rw [ha, BitVec.toNat_add, BitVec.toNat_setWidth, show mappedUser.cfg.memTop = 57344 from rfl]
    change (8192 + _) % 262144 < 57344
    omega
  · exact absurd h (reasons_of_no_write _ _ _ (hw _ hp))

theorem witness_UserModeIsConfined_completes : mappedUser.run = .running ∧
    (∃ t, completes (.mov ⟨.autoDec, .sp⟩ (rg .r0)) mappedUser t) ∧ ∃ t, completes .wait mappedUser t :=
  ⟨rfl, ⟨_, rfl, by decide⟩, _, rfl, rfl⟩

/-! ### Operands -/

theorem witness_AddressModes_read : (∃ ea s1, memReadWordIn pointing.mode (pointing.reg .r1) pointing = .ok ea s1) ∧
    (∃ ea s1, memReadWordIn pointing.mode (pointing.reg .r4 - 2) (pointing.setReg .r4 (pointing.reg .r4 - 2)) = .ok ea s1) ∧
    ∃ idx ea s1 s2, memReadWordIn pointing.mode pointing.pc pointing = .ok idx s1 ∧
      memReadWordIn pointing.mode (idx + ({ s1 with pc := pointing.pc + 2 } : State).reg .r1) { s1 with pc := pointing.pc + 2 } = .ok ea s2 :=
  ⟨⟨_, _, rfl⟩, ⟨_, _, rfl⟩, _, _, _, _, rfl, rfl⟩

theorem witness_AddressModes_error : (∃ e s1, memReadWordIn pointing.mode (pointing.reg .r2) pointing = .error e s1) ∧
    (∃ e s1, memReadWordIn pointing.mode (pointing.reg .r3 - 2) (pointing.setReg .r3 (pointing.reg .r3 - 2)) = .error e s1) ∧
    (∃ e s1, memReadWordIn .kernel 0o1001 { pointing with pc := 0o1001 } = .error e s1) ∧
    ∃ idx e s1 s2, memReadWordIn pointing.mode pointing.pc pointing = .ok idx s1 ∧
      memReadWordIn pointing.mode (idx + ({ s1 with pc := pointing.pc + 2 } : State).reg .r2) { s1 with pc := pointing.pc + 2 } = .error e s2 :=
  ⟨⟨_, _, rfl⟩, ⟨_, _, rfl⟩, ⟨_, _, rfl⟩, _, _, _, _, rfl, rfl⟩

theorem witness_OperandFrame : (∃ loc s1 v s2, operand .word ⟨.indexIndirect, .r1⟩ pointing = .ok loc s1 ∧ loadWord loc s1 = .ok v s2) ∧
    ∃ loc s1 v s2, operand .byte ⟨.autoInc, .r2⟩ pointing = .ok loc s1 ∧ loadByte loc s1 = .ok v s2 :=
  ⟨⟨_, _, _, _, rfl, rfl⟩, _, _, _, _, rfl, rfl⟩

theorem witness_LoadAndStore : pointing.cfg.byteRegDest = .signExtendAll ∧
    ({ pointing with cfg := { Config.default with byteRegDest := .movbOnly } } : State).cfg.byteRegDest = .movbOnly ∧
    (∃ hit s1, memWriteWordIn pointing.mode 0o376 1 pointing = .ok hit s1) ∧
      (∃ hit s1, memWriteByteIn pointing.mode 0o377 1 pointing = .ok hit s1) ∧
    (∃ hit s1, memWriteWordIn pointing.mode 0o400 1 pointing = .ok hit s1) ∧
    (∃ e s1, memWriteWordIn pointing.mode 0o377 1 pointing = .error e s1) ∧
      ∃ e s1, memWriteByteIn pointing.mode 0o100000 1 pointing = .error e s1 :=
  ⟨rfl, rfl, ⟨_, _, rfl⟩, ⟨_, _, rfl⟩, ⟨_, _, rfl⟩, ⟨_, _, rfl⟩, _, _, rfl⟩

/-! ### Memory -/

theorem witness_ReadOutcomes_stops : BitVec.getLsbD (0o2001 : Word) 0 = true ∧
    (mmuEnabled mappedUser.mmr0 = true ∧ mappedUser.accessReasons .user 0o40000 .read ≠ 0 ∧ BitVec.getLsbD (0o40000 : Word) 0 = false) ∧
    (mmuEnabled pointing.mmr0 = false ∧ ¬ (pointing.physAddr .kernel 0o100000).toNat < pointing.cfg.memTop ∧
      ioRegAt (pointing.physAddr .kernel 0o100000) = none ∧
        (pointing.physAddr .kernel 0o100000).toNat ∉ pointing.cfg.deviceAddrs) := by decide

theorem witness_ReadOutcomes_answers :
    (mmuEnabled mappedUser.mmr0 = true ∧ mappedUser.accessReasons .user 0o37700 .read = 0 ∧
      (mappedUser.physAddr .user 0o37700).toNat < mappedUser.cfg.memTop) ∧
    (mmuEnabled pointing.mmr0 = false ∧ (pointing.physAddr .kernel 0o77776).toNat < pointing.cfg.memTop) ∧
    (¬ (common.physAddr .kernel 0o177776).toNat < common.cfg.memTop ∧ ioRegAt (common.physAddr .kernel 0o177776) = some .psw) ∧
    (¬ (withDevice.physAddr .kernel 0o177560).toNat < withDevice.cfg.memTop ∧ ioRegAt (withDevice.physAddr .kernel 0o177560) = none ∧
      (withDevice.physAddr .kernel 0o177560).toNat ∈ withDevice.cfg.deviceAddrs) := by decide

theorem witness_WriteStops : BitVec.getLsbD (0o2001 : Word) 0 = true ∧
    (mmuEnabled mappedUser.mmr0 = true ∧ mappedUser.accessReasons .user 0o20000 .write ≠ 0 ∧
      mappedUser.accessReasons .user 0o20000 .read = 0) ∧
    (mmuEnabled common.mmr0 = false ∧ ¬ (common.physAddr .kernel 0o177574).toNat < common.cfg.memTop ∧
      ioRegAt (common.physAddr .kernel 0o177574) = none ∧
        (common.physAddr .kernel 0o177574).toNat ∉ common.cfg.deviceAddrs) := by decide

theorem witness_WriteStores : configWf mappedUser.cfg = true ∧ mmuEnabled mappedUser.mmr0 = true ∧
    mappedUser.accessReasons .user 0o17700 .write = 0 ∧ (mappedUser.physAddr .user 0o17700).toNat < mappedUser.cfg.memTop ∧
    configWf pointing.cfg = true ∧ mmuEnabled pointing.mmr0 = false ∧
    (pointing.physAddr .kernel 0o77776).toNat < pointing.cfg.memTop := by decide

theorem witness_ReadAfterWrite : (∃ hit t, memWriteWordIn .user 0o17700 0o123456 mappedUser = .ok hit t) ∧
    (mappedUser.physAddr .user 0o17700).toNat < mappedUser.cfg.memTop ∧ mappedUser.accessReasons .user 0o17700 .read = 0 :=
  ⟨⟨_, _, rfl⟩, by decide, by decide⟩

theorem witness_FixedMapping : mmuEnabled common.mmr0 = false ∧ ¬ (0o160000 : Word).toNat < 0o160000 ∧
    (0o157777 : Word).toNat < 0o160000 := by
  decide

/-- Both values of MMU_BOUNDS and of U, at the bound `b` = 0100 of S = 1 (95 section 10). -/
def bounded (bounds : MmuBounds) (pdr : Word) : State :=
  { mapped with userPdr := mapped.userPdr.set 0 pdr, cfg := { Config.default with mmuBounds := bounds } }

theorem witness_MmuTranslation : mmuEnabled mapped.mmr0 = true ∧ (bounded .sourceLiteral 0o406).accessReasons .user 0o100 .write = 0 ∧
    (bounded .sourceLiteral 0o406).accessReasons .user 0o101 .read ≠ 0 ∧
      (bounded .blockGranular 0o406).accessReasons .user 0o177 .read = 0 ∧
    (bounded .blockGranular 0o406).accessReasons .user 0o200 .read ≠ 0 ∧
      (bounded .sourceLiteral 0o416).accessReasons .user 0o100 .read = 0 ∧
    (bounded .sourceLiteral 0o416).accessReasons .user 0o77 .read ≠ 0 ∧
      (bounded .blockGranular 0o416).accessReasons .user 0o77 .read ≠ 0 ∧
    (bounded .sourceLiteral 0o402).accessReasons .user 0 .write ≠ 0 ∧
      (bounded .sourceLiteral 0o404).accessReasons .user 0 .read ≠ 0 := by decide

theorem witness_MmuFaultRecords : (∃ e s1, translate .user 0o20000 .write mappedUser = .error e s1) ∧
    ∃ e s1, translate .kernel 0o20000 .read mapped = .error e s1 := ⟨⟨_, _, rfl⟩, _, _, rfl⟩

theorem witness_IoRegisterWrites : pswWritable 0o177777 = true ∧ pswWritable 0o140000 = true ∧ pswWritable 0o040000 = false ∧
    pswWritable 0o020000 = false := by decide

/-- Stores that reach a register, with the MMU off (the PSW, the high byte of DR) and on (MMR0, through kernel page 7). -/
theorem witness_IoRegisterWrites_stores :
    (mmuEnabled common.mmr0 = false ∧ ¬ (common.physAddr .kernel 0o177776).toNat < common.cfg.memTop ∧
      ioRegAt (common.physAddr .kernel 0o177776) = some .psw ∧ ioRegAt (common.physAddr .user 0o177571) = some .switches) ∧
    (mmuEnabled mapped.mmr0 = true ∧ mapped.accessReasons .kernel 0o177572 .write = 0 ∧
      ¬ (mapped.physAddr .kernel 0o177572).toNat < mapped.cfg.memTop ∧
        ioRegAt (mapped.physAddr .kernel 0o177572) = some .mmr0) := by decide

/-- Stores that reach a device, with the MMU off and on. -/
theorem witness_IoRegisterWrites_device :
    (mmuEnabled withDevice.mmr0 = false ∧ ¬ (withDevice.physAddr .kernel 0o177560).toNat < withDevice.cfg.memTop ∧
      ioRegAt (withDevice.physAddr .kernel 0o177560) = none ∧
        (withDevice.physAddr .kernel 0o177560).toNat ∈ withDevice.cfg.deviceAddrs) ∧
    (mmuEnabled mapped.mmr0 = true ∧ mapped.accessReasons .kernel 0o177561 .write = 0 ∧
      (mapped.physAddr .kernel 0o177561).toNat ∈ withDevice.cfg.deviceAddrs) := by decide

/-! ### Stack and traps -/

theorem witness_PushAndPop : (∃ hit t, memWriteWordIn .kernel (pointing.reg .sp - 2) 1 (pointing.setReg .sp (pointing.reg .sp - 2)) = .ok hit t) ∧
    (∃ e t, memWriteWordIn .kernel (0o777 - 2) 1 ({ pointing with ksp := 0o777 }.setReg .sp (0o777 - 2)) = .error e t) ∧
    (∃ x t, memReadWordIn pointing.mode (pointing.reg .sp) pointing = .ok x t) ∧
    ∃ e t, memReadWordIn .kernel 0o777 { pointing with ksp := 0o777 } = .error e t :=
  ⟨⟨_, _, rfl⟩, ⟨_, _, rfl⟩, ⟨_, _, rfl⟩, _, _, rfl⟩

/-- Whether the accesses to these kernel addresses all reach memory. -/
def reaches (s : State) (kind : Access) (vas : List Word) : Bool :=
  vas.all fun va => (!mmuEnabled s.mmr0 || s.accessReasons .kernel va kind == 0) && decide ((s.physAddr .kernel va).toNat < s.cfg.memTop)

theorem kernelAccess_of_reaches {s : State} {kind : Access} {vas : List Word} (h : reaches s kind vas = true) :
    ∀ va ∈ vas, s.kernelAccess va kind := by
  intro va hva
  have hv := List.all_eq_true.mp h va hva
  simp only [Bool.and_eq_true, Bool.or_eq_true, Bool.not_eq_true', beq_iff_eq, decide_eq_true_eq] at hv
  exact ⟨fun hon => hv.1.resolve_left (by simp [hon]), hv.2⟩

/-- The hypotheses of `TrapSequenceSaves`. -/
def trapReady (n : Word) (s : State) : Prop :=
  n.toNat % 4 = 0 ∧ s.ksp.toNat % 2 = 0 ∧ (∀ va ∈ [n, n + 2], s.kernelAccess va .read) ∧
    (∀ va ∈ [s.ksp - 2, s.ksp - 4], s.kernelAccess va .write) ∧ s.physAddr .kernel (s.ksp - 2) ≠ s.physAddr .kernel (s.ksp - 4)

/-- With the MMU off, the stack right above the vector and at the top of memory; with it on, the stack in one page and across two. -/
theorem witness_TrapSequenceSaves : trapReady 0o374 { vectors with ksp := 0o404 } ∧ trapReady 0 { vectors with ksp := 0o160000 } ∧
    (mmuEnabled mapped.mmr0 = true ∧ trapReady 0o250 { mapped with ksp := 0o1000 }) ∧
    trapReady 0o250
      { mapped with
        ksp := 0o20002, kernelPar := mapped.kernelPar.set 1 0o200, kernelPdr := mapped.kernelPdr.set 1 0o77406
        cfg := { Config.default with mmuBounds := .blockGranular } } := by
  refine ⟨?_, ?_, ⟨rfl, ?_⟩, ?_⟩ <;>
    exact ⟨rfl, rfl, kernelAccess_of_reaches (by decide), kernelAccess_of_reaches (by decide), by decide⟩

/-- The hypotheses of `RedStackTrapSaves` but for the failing push. -/
def redReady (s : State) : Prop :=
  (∀ va ∈ [0o34, 0o34 + 2], s.kernelAccess va .read) ∧ (∀ va ∈ [0, 2], s.kernelAccess va .write) ∧
    ∀ va ∈ [4, 6], s.kernelAccess va .read

/-- An odd KSP, with the MMU off and on; a push that the MMU turns down; one where nothing answers. -/
theorem witness_RedStackTrapSaves : (redReady { vectors with ksp := 0o1001 } ∧ redReady { mapped with ksp := 0o1001 }) ∧
    (redReady { mapped with ksp := 0o40000 } ∧ mapped.accessReasons .kernel (0o40000 - 2) .write ≠ 0) ∧
    redReady { pointing with ksp := 0o160000 } ∧ ¬ (pointing.physAddr .kernel (0o160000 - 2)).toNat < pointing.cfg.memTop ∧
      ioRegAt (pointing.physAddr .kernel (0o160000 - 2)) = none ∧
        (pointing.physAddr .kernel (0o160000 - 2)).toNat ∉ pointing.cfg.deviceAddrs := by
  refine ⟨⟨?_, ?_⟩, ⟨?_, by decide⟩, ?_, by decide⟩ <;>
    exact ⟨kernelAccess_of_reaches (by decide), kernelAccess_of_reaches (by decide), kernelAccess_of_reaches (by decide)⟩

/-- Every exception, with its vector's handler present. -/
theorem witness_ExceptionsTrap : ∀ e : Exn, (raise e : Action Unit) vectors = .error (.raised e) vectors ∧
    ∃ t, TrapRuns (exnVector e) (if e = .mmuFault then { vectors with mmr2 := vectors.ia } else vectors) t := by
  intro e
  refine ⟨rfl, ?_⟩
  cases e <;> exact ⟨_, _, _, _, _, rfl, rfl, rfl⟩

/-- The ends of a trap sequence: the vector is unreadable; a push fails and the red stack trap follows, or fails as well; a push would put
a reserved mode into the PSW. -/
theorem witness_ExceptionsTrap_ends :
    (∃ e s1, vectorFetch 0o34 { mapped with kernelPdr := mapped.kernelPdr.set 0 0 } = .error (.raised e) s1) ∧
    (∃ x s1 s2 y s3, vectorFetch 0o34 { vectors with ksp := 0o1001 } = .ok x s1 ∧
      trapPushes 0 0o1000 { s1 with psw := pswOfTrap 0 x.2 } = .error (.raised .busError) s2 ∧ redStackEntry 0 0o1000 s2 = .ok y s3) ∧
    (∃ x s1 s2 s3, vectorFetch 0o34 { mapped with ksp := 0o1001, kernelPdr := mapped.kernelPdr.set 0 0o77402 } = .ok x s1 ∧
      trapPushes 0 0o1000 { s1 with psw := pswOfTrap 0 x.2 } = .error (.raised .busError) s2 ∧
        redStackEntry 0 0o1000 s2 = .error (.raised .mmuFault) s3) ∧
    ∃ x s1 s2, vectorFetch 0o34 { vectors with ksp := 2, pc := 0o40000 } = .ok x s1 ∧
      trapPushes 0 0o40000 { s1 with psw := pswOfTrap 0 x.2 } = .error (.refusal .reservedMode) s2 :=
  ⟨⟨_, _, rfl⟩, ⟨_, _, _, _, _, rfl, rfl, rfl⟩, ⟨_, _, _, _, rfl, rfl, rfl⟩, _, _, _, rfl, rfl⟩

theorem witness_TrapInstructions : (∃ t, TrapRuns 0o014 vectorsUser t) ∧ (∃ t, TrapRuns 0o020 vectors t) ∧
    (∃ t, TrapRuns 0o030 vectorsUser t) ∧ ∃ t, TrapRuns 0o034 vectors t :=
  ⟨⟨_, _, _, _, _, rfl, rfl, rfl⟩, ⟨_, _, _, _, _, rfl, rfl, rfl⟩, ⟨_, _, _, _, _, rfl, rfl, rfl⟩, _, _, _, _, _, rfl, rfl, rfl⟩

theorem witness_IllegalCodesTrap : (∃ t, TrapRuns 0o010 vectors t) ∧ ∃ t, TrapRuns 0o010 vectorsUser t :=
  ⟨⟨_, _, _, _, _, rfl, rfl, rfl⟩, _, _, _, _, _, rfl, rfl, rfl⟩

theorem witness_HaltAndWait : vectors.mode = .kernel ∧ vectorsUser.mode = .user ∧ ∃ t, TrapRuns 0o004 vectorsUser t :=
  ⟨by decide, by decide, _, _, _, _, _, rfl, rfl, rfl⟩

/-- RESET_EFFECT as a platform may have it: one request withdrawn; bit 0 of MMR0 and PAR 3 of the user set cleared, MMR2 any value. -/
def resetting : State :=
  { common with
    psw := 0o340, mmr0 := 0o2001, pending := [⟨4, 0o60⟩, ⟨5, 0o64⟩], userPar := common.userPar.set 3 0o77
    cfg := { Config.default with resetEffect :=
      ⟨.only [⟨4, 0o60⟩], [⟨.mmr0, .load 0o177776 0⟩, ⟨.par .user 3, .load 0 0⟩, ⟨.mmr2, .anyValue⟩]⟩ } }

theorem witness_ResetInstruction : common.mode = .kernel ∧ vectorsUser.mode = .user ∧ common.cfg.resetEffect = .none ∧
    resetting.mode = .kernel ∧ (∀ a ∈ resetting.cfg.resetEffect.registers, a.reg ≠ .psw) ∧
    pswWritable (((0o340 &&& 0o170377) &&& 0) ||| 0o140000) = true ∧
    pswWritable (((0o340 &&& 0o170377) &&& 0o177777) ||| 0o40000) = false := by
  decide

/-- 40 R146: what that platform names is reset, and nothing else. -/
theorem test_reset_effect : after (fun t => (t.mmr0, t.userPar[3], t.pending)) (exec .reset resetting) = some (0o2000, 0, [⟨5, 0o64⟩]) := by
  decide

/-- A return frame on the stack of either mode: the PC 02000 and the word `p`. -/
def returning (p : Word) : State := put [(0o774, 0o2000), (0o776, p)] { common with ksp := 0o774, usp := 0o774 }

theorem witness_ReturnsFromTrap : common.mode = .kernel ∧ vectorsUser.mode = .user ∧
    (∃ newPc popped s1 s2, pop (returning 0o140020) = .ok newPc s1 ∧ pop { s1 with pc := newPc } = .ok popped s2 ∧
      pswWritable popped = true) ∧
    (∃ newPc popped s1 s2, pop (returning 0o040000) = .ok newPc s1 ∧ pop { s1 with pc := newPc } = .ok popped s2 ∧
      pswWritable popped = false) ∧
    ∃ newPc popped s1 s2, pop { returning 0o357 with psw := 0o140000 } = .ok newPc s1 ∧ pop { s1 with pc := newPc } = .ok popped s2 :=
  ⟨by decide, by decide, ⟨_, _, _, _, rfl, rfl, by decide⟩, ⟨_, _, _, _, rfl, rfl, by decide⟩, _, _, _, _, rfl, rfl⟩

/-! ### Instructions with operands: register and memory destinations, and the PSW at its bus address -/

/-- The destination can be evaluated and read, and any word stored. -/
def updatable (dd : Operand) (s : State) : Prop :=
  ∃ loc s1 d s2, operand .word dd s = .ok loc s1 ∧ loadWord loc s1 = .ok d s2 ∧ ∀ v, ∃ hit s3, storeWord loc v s2 = .ok hit s3

theorem witness_WordUpdates : updatable (rg .r0) pointing ∧ updatable ⟨.autoIncIndirect, .r1⟩ pointing ∧
    updatable ⟨.indirect, .r1⟩ pointing :=
  ⟨⟨_, _, _, _, rfl, rfl, fun _ => ⟨_, _, rfl⟩⟩, ⟨_, _, _, _, rfl, rfl, fun _ => ⟨_, _, rfl⟩⟩, _, _, _, _, rfl, rfl, fun _ => ⟨_, _, rfl⟩⟩

theorem witness_WordUpdates_psw : ∃ loc s1 d s2 s3, operand .word ⟨.indirect, .r0⟩ { common with r0 := 0o177776 } = .ok loc s1 ∧
    loadWord loc s1 = .ok d s2 ∧ storeWord loc (d + 1) s2 = .ok true s3 := ⟨_, _, _, _, _, rfl, rfl, rfl⟩

theorem witness_ByteUpdates : (∃ loc s1 d s2, operand .byte (rg .r0) pointing = .ok loc s1 ∧ loadByte loc s1 = .ok d s2 ∧
      ∀ v, ∃ hit s3, storeByte loc v s2 = .ok hit s3) ∧
    ∃ loc s1 d s2, operand .byte ⟨.indirect, .r2⟩ pointing = .ok loc s1 ∧ loadByte loc s1 = .ok d s2 ∧
      ∀ v, ∃ hit s3, storeByte loc v s2 = .ok hit s3 :=
  ⟨⟨_, _, _, _, rfl, rfl, fun _ => ⟨_, _, rfl⟩⟩, _, _, _, _, rfl, rfl, fun _ => ⟨_, _, rfl⟩⟩

theorem witness_ClearAndSignExtend : (∃ loc hit s1 s2, operand .word ⟨.autoDec, .sp⟩ pointing = .ok loc s1 ∧
    storeWord loc 0 s1 = .ok hit s2) ∧
    (∃ loc hit s1 s2, operand .byte ⟨.indirect, .r2⟩ pointing = .ok loc s1 ∧ storeByte loc 0 s1 = .ok hit s2) ∧
    ∃ loc hit s1 s2, operand .word (rg .r0) pointing = .ok loc s1 ∧
      storeWord loc (if s1.flags.n then 0o177777 else 0) s1 = .ok hit s2 :=
  ⟨⟨_, _, _, _, rfl, rfl⟩, ⟨_, _, _, _, rfl, rfl⟩, _, _, _, _, rfl, rfl⟩

theorem witness_Tests : (∃ loc s1 s2 d, operand .word ⟨.indirect, .r1⟩ pointing = .ok loc s1 ∧ loadWord loc s1 = .ok d s2) ∧
    ∃ loc s1 s2 d, operand .byte ⟨.autoInc, .r2⟩ pointing = .ok loc s1 ∧ loadByte loc s1 = .ok d s2 :=
  ⟨⟨_, _, _, _, rfl, rfl⟩, _, _, _, _, rfl, rfl⟩

/-- Memory in the previous space, SP of the previous mode, another register; a push follows. -/
theorem witness_MoveFromPrevious : (∃ loc s1, operand .word (rg .sp) { pointing with psw := 0o030000 } = .ok loc s1 ∧
      loc = .reg .sp ∧ s1.prevMode = .user ∧ ∃ s3, push s1.usp s1 = .ok () s3) ∧
    (∃ loc s1, operand .word (rg .r0) pointing = .ok loc s1 ∧ loc = .reg .r0 ∧ ∃ s3, push (s1.reg .r0) s1 = .ok () s3) ∧
    ∃ ea pushed s1 s2 s3 v, operand .word ⟨.indirect, .r1⟩ { pointing with psw := 0o030000 } = .ok (.mem ea pushed) s1 ∧
      memReadWordIn s1.prevMode ea s1 = .ok v s2 ∧ push v s2 = .ok () s3 :=
  ⟨⟨_, _, rfl, rfl, by decide, _, rfl⟩, ⟨_, _, rfl, rfl, _, rfl⟩, _, _, _, _, _, _, rfl, rfl, rfl⟩

theorem witness_MoveToPrevious : (∃ v loc s1 s2, pop { pointing with psw := 0o030000 } = .ok v s1 ∧
    operand .word (rg .sp) s1 = .ok loc s2 ∧
      loc = .reg .sp ∧ s2.prevMode = .user) ∧
    (∃ v loc s1 s2, pop pointing = .ok v s1 ∧ operand .word (rg .r0) s1 = .ok loc s2 ∧ loc = .reg .r0) ∧
    ∃ v ea pushed hit s1 s2 s3, pop pointing = .ok v s1 ∧ operand .word ⟨.autoDec, .sp⟩ s1 = .ok (.mem ea pushed) s2 ∧
      storeWordIn s2.prevMode (.mem ea pushed) v s2 = .ok hit s3 :=
  ⟨⟨_, _, _, _, rfl, rfl, rfl, by decide⟩, ⟨_, _, _, _, rfl, rfl, rfl⟩, _, _, _, _, _, _, _, rfl, rfl, rfl⟩

/-- The source can be evaluated and read, then the destination evaluated and read, then any word stored. -/
theorem witness_TwoOperandUpdates : ∃ x s1 s2 locS, operand .word ⟨.autoInc, .r1⟩ pointing = .ok locS s1 ∧ loadWord locS s1 = .ok x s2 ∧
    updatable ⟨.indexIndirect, .r1⟩ { s2 with r1 := 0o2000 } ∧ updatable (rg .r1) s2 :=
  ⟨_, _, _, _, rfl, rfl, ⟨_, _, _, _, rfl, rfl, fun _ => ⟨_, _, rfl⟩⟩, _, _, _, _, rfl, rfl, fun _ => ⟨_, _, rfl⟩⟩

theorem witness_TwoOperandUpdates_byte : ∃ x d s1 s2 s3 s4 locS locD, operand .byte ⟨.autoInc, .r2⟩ pointing = .ok locS s1 ∧
    loadByte locS s1 = .ok x s2 ∧ operand .byte ⟨.indirect, .r2⟩ s2 = .ok locD s3 ∧ loadByte locD s3 = .ok d s4 ∧
    ∀ v, ∃ hit s5, storeByte locD v s4 = .ok hit s5 := ⟨_, _, _, _, _, _, _, _, rfl, rfl, rfl, rfl, fun _ => ⟨_, _, rfl⟩⟩

/-- A register takes the byte sign-extended; memory takes it as it is. -/
theorem witness_Moves_byte : (∃ x s1 s2 s3 locS, operand .byte ⟨.indirect, .r2⟩ pointing = .ok locS s1 ∧ loadByte locS s1 = .ok x s2 ∧
      operand .byte (rg .r0) s2 = .ok (.reg .r0) s3) ∧
    ∃ x s1 s2 s3 s4 ea pushed hit locS, operand .byte (rg .r0) pointing = .ok locS s1 ∧ loadByte locS s1 = .ok x s2 ∧
      operand .byte ⟨.autoDec, .sp⟩ s2 = .ok (.mem ea pushed) s3 ∧ storeByte (.mem ea pushed) x s3 = .ok hit s4 :=
  ⟨⟨_, _, _, _, _, rfl, rfl, rfl⟩, _, _, _, _, _, _, _, _, _, rfl, rfl, rfl, rfl⟩

theorem witness_Moves_word : ∃ x s1 s2 s3 s4 hit locS locD, operand .word (rg .r0) pointing = .ok locS s1 ∧
    loadWord locS s1 = .ok x s2 ∧
    operand .word ⟨.autoDec, .sp⟩ s2 = .ok locD s3 ∧ storeWord locD x s3 = .ok hit s4 := ⟨_, _, _, _, _, _, _, _, rfl, rfl, rfl, rfl⟩

theorem witness_Comparisons : (∃ x d s1 s2 s3 s4 locS locD, operand .word (rg .r0) pointing = .ok locS s1 ∧
    loadWord locS s1 = .ok x s2 ∧
      operand .word ⟨.indirect, .r1⟩ s2 = .ok locD s3 ∧ loadWord locD s3 = .ok d s4) ∧
    ∃ x d s1 s2 s3 s4 locS locD, operand .byte (rg .r0) pointing = .ok locS s1 ∧ loadByte locS s1 = .ok x s2 ∧
      operand .byte ⟨.indirect, .r2⟩ s2 = .ok locD s3 ∧ loadByte locD s3 = .ok d s4 :=
  ⟨⟨_, _, _, _, _, _, _, _, rfl, rfl, rfl, rfl⟩, _, _, _, _, _, _, _, _, rfl, rfl, rfl, rfl⟩

/-- `xor r1,(r1)+`: the register is read after its step (95 vector 139). -/
theorem witness_ExclusiveOr : ∃ d s1 s2 s3 hit loc, operand .word ⟨.autoInc, .r1⟩ pointing = .ok loc s1 ∧ loadWord loc s1 = .ok d s2 ∧
    storeWord loc (d ^^^ s2.reg .r1) s2 = .ok hit s3 := ⟨_, _, _, _, _, _, rfl, rfl, rfl⟩

/-! ### EIS -/

theorem witness_Multiply : (∃ x s1 s2 loc, operand .word ⟨.indirect, .r1⟩ pointing = .ok loc s1 ∧ loadWord loc s1 = .ok x s2) ∧
    regOdd .r0 = false ∧ regOdd .r1 = true ∧ regOdd .sp = false ∧ regOdd .pc = true := ⟨⟨_, _, _, _, rfl, rfl⟩, rfl, rfl, rfl, rfl⟩

/-- -32768 / 1: the quotient -32768 fits (95 vector 122); -17 / 5: the remainder has the sign of the dividend (95 vector 118). -/
theorem witness_Divide : (∃ s1 s2 loc, operand .word (rg .r2) { common with r0 := 0o177777, r1 := 0o100000, r2 := 1 } = .ok loc s1 ∧
      loadWord loc s1 = .ok 1 s2 ∧ (s2.reg .r0).toInt * 65536 + (s2.reg (regPair .r0)).toNat = -32768 * (1 : Word).toInt + 0 ∧
      (0 : Int).natAbs < (1 : Word).toInt.natAbs) ∧
    ∃ s1 s2 loc, operand .word (rg .r2) { common with r0 := 0o177777, r1 := 0o177757, r2 := 5 } = .ok loc s1 ∧
      loadWord loc s1 = .ok 5 s2 ∧ (s2.reg .r0).toInt * 65536 + (s2.reg (regPair .r0)).toNat = -3 * (5 : Word).toInt + -2 ∧
      (-2 : Int).natAbs < (5 : Word).toInt.natAbs ∧ ((-2 : Int) < 0 ↔ (s2.reg .r0).toInt < 0) :=
  ⟨⟨_, _, _, rfl, rfl, by decide, by decide⟩, _, _, _, rfl, rfl, by decide, by decide, by decide⟩

theorem witness_Divide_odd : regOdd .r3 = true ∧ ∃ x s1 s2 loc, operand .word (rg .r2) common = .ok loc s1 ∧
    loadWord loc s1 = .ok x s2 :=
  ⟨rfl, _, _, _, _, rfl, rfl⟩

/-- A zero divisor, and 65536 / 1, whose quotient does not fit (95 vectors 120, 121). -/
theorem witness_DivideOpenCases : (∃ s1 s2 loc, operand .word (rg .r2) common = .ok loc s1 ∧ loadWord loc s1 = .ok 0 s2) ∧
    ∃ s1 s2 loc, operand .word (rg .r2) { common with r0 := 1, r2 := 1 } = .ok loc s1 ∧ loadWord loc s1 = .ok 1 s2 ∧
      ∀ q m : Int, (s2.reg .r0).toInt * 65536 + (s2.reg (regPair .r0)).toNat = q * (1 : Word).toInt + m → m.natAbs < (1 : Word).toInt.natAbs →
        (m = 0 ∨ (m < 0 ↔ (s2.reg .r0).toInt < 0)) → q < -32768 ∨ 32767 < q := by
  refine ⟨⟨_, _, _, rfl, rfl⟩, _, _, _, rfl, rfl, fun q m h hm _ => ?_⟩
  change (65536 : Int) = q * 1 + m at h
  change m.natAbs < 1 at hm
  omega

/-- Counts 1, 31, -1, -32 and 0, the last with bits above the six (95 vectors 125, 130, 124, 131, 132). -/
theorem witness_ArithmeticShift : (BitVec.extractLsb' 0 6 (1 : Word)).toInt = 1 ∧ (BitVec.extractLsb' 0 6 (0o37 : Word)).toInt = 31 ∧
    (BitVec.extractLsb' 0 6 (0o177777 : Word)).toInt = -1 ∧ (BitVec.extractLsb' 0 6 (0o40 : Word)).toInt = -32 ∧
    (BitVec.extractLsb' 0 6 (0o100 : Word)).toInt = 0 := by decide

theorem witness_ArithmeticShift_source : ∀ x : Word, ∃ s1 s2 loc, operand .word (rg .r2) { common with r2 := x } = .ok loc s1 ∧
    loadWord loc s1 = .ok x s2 ∧ regOdd .r1 = true ∧ regOdd .r0 = false ∧
      s2.cfg.ashZeroC = .clear := fun _ => ⟨_, _, _, rfl, rfl, rfl, rfl, rfl⟩

/-! ### Jumps -/

theorem witness_JumpsAndReturns : (∃ ea pushed s1, operand .word ⟨.autoIncIndirect, .sp⟩ pointing = .ok (.mem ea pushed) s1 ∧
      ∃ s2, push (s1.reg .pc) s1 = .ok () s2) ∧
    (∃ x s1, pop { pointing with pc := pointing.reg .r5 } = .ok x s1) ∧
    ∃ x s1, pop { (pointing.setReg .sp (0o1774 + BitVec.ofNat 16 (2 * (2 : BitVec 6).toNat))) with pc := pointing.r5 } = .ok x s1 :=
  ⟨⟨_, _, _, rfl, _, rfl⟩, ⟨_, _, rfl⟩, _, _, rfl⟩

/-! ### Frames -/

theorem witness_FrameOneDestination : (∃ t, completes (.inc ⟨.autoDec, .r4⟩) pointing t) ∧ (∃ t, completes (.clr (rg .r0)) pointing t) ∧
    (∃ t, completes (.clrb ⟨.indirect, .r2⟩) pointing t) ∧ ∃ t, completes (.rorb (rg .r0)) pointing t :=
  ⟨⟨_, rfl, by decide⟩, ⟨_, rfl, by decide⟩, ⟨_, rfl, by decide⟩, _, rfl, by decide⟩

theorem witness_FrameTwoOperands : (∃ x s2 t, sourceWord ⟨.autoInc, .r1⟩ pointing = .ok x s2 ∧
    completes (.mov ⟨.autoInc, .r1⟩ ⟨.autoDec, .sp⟩) pointing t) ∧
    ∃ x s2 t, sourceByte ⟨.autoInc, .r2⟩ pointing = .ok x s2 ∧ completes (.bisb ⟨.autoInc, .r2⟩ ⟨.indirect, .r1⟩) pointing t :=
  ⟨⟨_, _, _, rfl, rfl, by decide⟩, _, _, _, rfl, rfl, by decide⟩

theorem witness_FrameReadOnly : (∃ t, completes (.cmpb ⟨.autoInc, .r2⟩ ⟨.autoInc, .r1⟩) pointing t) ∧
    ∃ t, completes (.tst ⟨.autoDec, .r4⟩) pointing t := ⟨⟨_, rfl, by decide⟩, _, rfl, by decide⟩

theorem witness_FrameRegisterOperand : (∃ t, completes (.mul .r0 ⟨.indirect, .r1⟩) pointing t) ∧
    (∃ t, completes (.div .r4 ⟨.indirect, .r1⟩) pointing t) ∧
    (∃ t, completes (.ash .r3 (rg .r1)) pointing t) ∧ (∃ t, completes (.ashc .r4 (rg .r1)) pointing t) ∧
    ∃ t, completes (.xor .r1 ⟨.autoInc, .r1⟩) pointing t :=
  ⟨⟨_, rfl, by decide⟩, ⟨_, rfl, by decide⟩, ⟨_, rfl, by decide⟩, ⟨_, rfl, by decide⟩, _, rfl, by decide⟩

theorem witness_FrameJumps : (∃ t, completes (.jmp ⟨.autoInc, .r1⟩) pointing t) ∧ (∃ t, completes (.rts .r5) pointing t) ∧
    (∃ t, completes (.mark 0) { pointing with pc := 0o2004 } t) ∧ (∃ t, completes .rti (returning 0o140020) t) ∧
    ∃ t, completes .rtt { returning 0o357 with psw := 0o140000 } t :=
  ⟨⟨_, rfl, by decide⟩, ⟨_, rfl, by decide⟩, ⟨_, rfl, by decide⟩, ⟨_, rfl, by decide⟩, _, rfl, by decide⟩

theorem witness_FrameStack : (∃ t, completes (.jsr .r5 ⟨.indirect, .r1⟩) pointing t) ∧
    (∃ t, completes (.mfpi ⟨.autoInc, .r1⟩) { pointing with psw := 0o030000 } t) ∧
    ∃ t, completes (.mtpi ⟨.autoInc, .r1⟩) { pointing with psw := 0o030000 } t :=
  ⟨⟨_, rfl, by decide⟩, ⟨_, rfl, by decide⟩, _, rfl, by decide⟩

end Sys2Proof.Tests
end

section
/-! SUPPORT. What survives every step: it is enough that the single changes a step is made of keep it, and that the flag of a trap
has no part in it. -/

namespace Sys2Proof.Machine

/-! ## Writes as changes of the state -/

/-- The bits of a PDR that a write loads are bits a PDR has (20 R72). -/
theorem pdrWriteMask_masked : pdrWriteMask &&& pdrMask = pdrWriteMask := by decide

/-- A write to a register of the I/O page loads it with a word that has only its bits, or is refused for a reserved mode
(10 R26, 20 R65 to R79). -/
theorem ioWrite_cases (r : IoReg) (v : Word) (s : State) :
    ioWrite r v s = .error (.refusal .reservedMode) s ∨
      ∃ w, ioWrite r v s = .ok () (s.withIo r (w &&& ioBits r)) ∧ (r = .psw → pswWritable w = true) := by
  cases r with
  | pdr mode page =>
    have hbits : (v &&& pdrWriteMask) &&& pdrMask = v &&& pdrWriteMask := by rw [BitVec.and_assoc, pdrWriteMask_masked]
    exact .inr ⟨v &&& pdrWriteMask, congrArg (fun w => EStateM.Result.ok () (s.setPdr mode page w)) hbits.symm, nofun⟩
  | par mode page => exact .inr ⟨v, rfl, nofun⟩
  | switches => exact .inr ⟨v, by rw [show ioBits .switches = 0o177777 from rfl, and_word_ones]; rfl, nofun⟩
  | mmr0 => exact .inr ⟨v, rfl, nofun⟩
  | mmr2 => exact .inr ⟨s.mmr2, by rw [show ioBits .mmr2 = 0o177777 from rfl, and_word_ones]; rfl, nofun⟩
  | psw =>
    cases hw : pswWritable v with
    | false => exact .inl (by simp [ioWrite, hw])
    | true => exact .inr ⟨v, by simp [ioWrite, hw, State.withIo, pswRead, ioBits], fun _ => hw⟩

/-- The changes a step is made of, the flag of a trap aside, each keep `P`. -/
structure Stable (P : State → Prop) : Prop where
  setReg : ∀ s r v, P s → P (s.setReg r v)
  setStackPointer : ∀ s mode v, P s → P (s.setStackPointer mode v)
  setFlags : ∀ s f, P s → P (s.setFlags f)
  drawn : ∀ s n, P s → P (s.drawn n)
  putByte : ∀ s a v, a < s.cfg.memTop → P s → P (s.putByte a v)
  putWord : ∀ s a v, a % 2 = 0 → a < s.cfg.memTop → P s → P (s.putWord a v)
  withIo : ∀ s r v, (r = .psw → pswWritable v = true) → P s → P (s.withIo r (v &&& ioBits r))
  setC : ∀ s mode page, P s → P (s.setPdr mode page (pdrSetC (s.pdr mode page)))
  mmuFault : ∀ s mode va kind, P s → P (s.withMmuFault mode va kind)
  userReturn : ∀ s v, P s → P { s with psw := pswOfUserReturn s.psw v }
  loadPsw : ∀ s s1 v, P s → P s1 → P { s1 with psw := pswOfTrap s.psw v }
  withdraw : ∀ s f, P s → P { s with pending := s.pending.filter f }
  control : ∀ s pc mmr2 ia run yellow inhibit, P s →
    P { s with pc := pc, mmr2 := mmr2, ia := ia, run := run, yellowPending := yellow, traceInhibit := inhibit }

section
variable {P : State → Prop} (h : Stable P)
include h

/-! ## Stores -/

theorem ioWrite_keeps {s : State} (r : IoReg) (v : Word) (hs : P s) : Leaves P P (ioWrite r v s) := by
  rcases ioWrite_cases r v s with he | ⟨w, he, hw⟩
  · rw [he]; exact hs
  · rw [he]; exact h.withIo s r w hw hs

theorem physWriteWord_keeps {s : State} {pa : PhysAddr} (v : Word) (heven : pa.toNat % 2 = 0) (hs : P s) :
    Leaves P P (physWriteWord pa v s) := by
  unfold physWriteWord
  split
  · rename_i hlt
    exact h.putWord s _ v heven hlt hs
  · split
    · exact ioWrite_keeps h _ v hs
    · split <;> exact hs

theorem physWriteByte_keeps {s : State} (pa : PhysAddr) (v : Byte) (hs : P s) : Leaves P P (physWriteByte pa v s) := by
  unfold physWriteByte
  split
  · rename_i hlt
    exact h.putByte s _ v hlt hs
  · split
    · exact ioWrite_keeps h _ _ hs
    · split <;> exact hs

theorem afterWrite_keeps {s : State} (translated : Bool) (mode : Mode) (va : Word) (hs : P s) :
    P (s.afterWrite translated mode va) := by
  cases translated
  · exact hs
  · exact h.setC s mode (pageOf va) hs

theorem memWriteWordIn_keeps {s : State} (mode : Mode) (va v : Word) (hs : P s) : Leaves P P (memWriteWordIn mode va v s) := by
  rw [memWriteWordIn_apply]
  split
  · exact hs
  · rename_i hodd
    have heven : (s.physAddr mode va).toNat % 2 = 0 := by
      rw [physAddr_parity]
      rw [getLsbD_zero_eq, decide_eq_true_eq] at hodd
      omega
    have hw := physWriteWord_keeps h v heven hs
    split
    · exact h.mmuFault s mode va .write hs
    · cases hr : physWriteWord (s.physAddr mode va) v s with
      | ok _ t => rw [hr] at hw; exact afterWrite_keeps h _ mode va hw
      | error e t => rw [hr] at hw; exact hw

theorem memWriteByteIn_keeps {s : State} (mode : Mode) (va : Word) (v : Byte) (hs : P s) :
    Leaves P P (memWriteByteIn mode va v s) := by
  have hw := physWriteByte_keeps h (s.physAddr mode va) v hs
  rw [memWriteByteIn_apply]
  split
  · exact h.mmuFault s mode va .write hs
  · cases hr : physWriteByte (s.physAddr mode va) v s with
    | ok _ t => rw [hr] at hw; exact afterWrite_keeps h _ mode va hw
    | error e t => rw [hr] at hw; exact hw

/-! ## RESET_EFFECT and the return from a trap -/

theorem keeps_resetRegister (a : RegisterReset) : Keeps P P (resetRegister a) := by
  intro s hs
  obtain ⟨v, k, -, he⟩ := resetRegister_cases a s
  have hk : P { s with draws := s.draws + k } := by simpa [State.drawn] using h.drawn s ⟨k, 0⟩ hs
  rw [he]
  split
  · exact hk
  · rename_i hw
    exact h.withIo _ a.reg v (fun hp => by simpa [hp] using hw) hk

theorem keeps_resetRegisters (l : List RegisterReset) : Keeps P P (resetRegisters l) := by
  induction l with
  | nil => exact keeps_pure ()
  | cons a rest ih => exact keeps_bind (keeps_resetRegister h a) fun _ => ih

theorem withdrawn_keeps {s : State} (w : Withdrawal) (hs : P s) : P { s with pending := requestsLeft w s.pending } := by
  cases w with
  | every => simpa [requestsLeft] using h.withdraw s (fun _ => false) hs
  | only gone => exact h.withdraw s _ hs

theorem keeps_resetDevices : Keeps P P resetDevices := by
  intro s hs
  rw [resetDevices_apply]
  exact keeps_resetRegisters h _ _ (withdrawn_keeps h _ hs)

theorem keeps_loadReturnPsw (v : Word) : Keeps P P (loadReturnPsw v) := by
  intro s hs
  unfold loadReturnPsw
  split
  · split
    · rename_i hw
      exact h.withIo s .psw v (fun _ => hw) hs
    · exact hs
  · exact h.userReturn s v hs

/-! ## Every instruction, every trap sequence -/

theorem Stable.trapClosed : TrapClosed P where
  closed :=
    { weaken := fun _ hs => hs
      setReg := h.setReg
      setFlags := h.setFlags
      setPreviousSp := fun s v => h.setStackPointer s s.prevMode v
      drawn := h.drawn
      yellow := fun s hs => h.control s s.pc s.mmr2 s.ia s.run true s.traceInhibit hs
      mmuFault := h.mmuFault
      writeWord := fun _ mode va v _ hs => memWriteWordIn_keeps h mode va v hs
      writeByte := fun s va v hs => memWriteByteIn_keeps h s.mode va v hs
      returnPsw := fun s v hs => keeps_loadReturnPsw h v s hs
      inhibit := fun s hs => h.control s s.pc s.mmr2 s.ia s.run s.yellowPending true hs
      wait := fun s hs => h.control s s.pc s.mmr2 s.ia .waiting s.yellowPending s.traceInhibit hs
      halt := fun s _ hs => h.control s s.pc s.mmr2 s.ia .halted s.yellowPending s.traceInhibit hs
      reset := fun s _ hs => keeps_resetDevices h s hs }
  write := fun _ mode va v hs => memWriteWordIn_keeps h mode va v hs
  kernelSp := fun s v hs => h.setStackPointer s .kernel v hs
  loadPsw := h.loadPsw
  enter := fun s pc hs => h.control s pc s.mmr2 s.ia s.run false false hs
  fault := fun s hs => h.control s s.pc s.ia s.ia s.run s.yellowPending s.traceInhibit hs

end

/-! ## What a step can do -/

/-- A processor that has stopped stays, a request is accepted, or an instruction runs (60 R250, R258, R266). -/
theorem step_next_cases {s t : State} (ht : step s = .next t) :
    t = s ∨ (∃ q s1, chooseRequest s = some (q, s1) ∧ acceptRequest q s1 = .next t) ∨ instrCycle s = .next t := by
  unfold step at ht
  split at ht
  · cases ht
    exact .inl rfl
  · split at ht
    · exact .inr (.inl ⟨_, _, ‹_›, ht⟩)
    · cases ht
      exact .inl rfl
  · split at ht
    · exact .inr (.inl ⟨_, _, ‹_›, ht⟩)
    · exact .inr (.inr ht)

/-- Choosing a request draws at most the environment's choice (60 R250, log 2). -/
theorem chooseRequest_state {s s1 : State} {q : Request} (h : chooseRequest s = some (q, s1)) : ∃ k, s1 = s.drawn ⟨k, 0⟩ := by
  unfold chooseRequest at h
  split at h
  · cases h
  · cases h
    exact ⟨0, (drawn_none _).symm⟩
  · cases h
    exact ⟨1, (drawn_value s).symm⟩

/-- A next state of a trap is that of its trap sequence, marked (60 R243, R266). -/
theorem takeTrap_next {e : Exn} {s t : State} (ht : takeTrap e s = .next t) :
    ∃ u, trapAt (exnVector e) (if e = .mmuFault then { s with mmr2 := s.ia } else s) = .next u ∧ t = { u with trapTaken := true } := by
  unfold takeTrap markTrap at ht
  split at ht
  · rename_i u hu
    cases ht
    exact ⟨u, hu, rfl⟩
  · cases ht
  · cases ht

theorem afterInstr_next_cases {r : Result} {t : State} (ht : afterInstr r = .next t) :
    ∃ u, r = .next u ∧
      ((u.trapTaken = true ∧ t = { u with trapTaken := false }) ∨ (u.trapTaken = false ∧ endOfInstruction u = .next t)) := by
  cases r with
  | next u =>
    refine ⟨u, rfl, ?_⟩
    simp only [afterInstr] at ht
    cases htrap : u.trapTaken with
    | true =>
      rw [htrap, if_pos rfl] at ht
      cases ht
      exact .inl ⟨rfl, rfl⟩
    | false =>
      rw [htrap, if_neg (by decide)] at ht
      exact .inr ⟨rfl, ht⟩
  | fault f => cases ht
  | refused r => cases ht

/-- The state with nothing left that lives only inside an instruction, the flag of a trap aside (10 R35). -/
def State.checked (s : State) : State := { s with yellowPending := false, traceInhibit := false }

/-- The checks at the end of an instruction: the trap sequence of the yellow stack trap or of the trace trap, or nothing
(60 R247, R256). -/
theorem endOfInstruction_next_cases {s t : State} (ht : endOfInstruction s = .next t) :
    t = s.checked ∨ ∃ n, trapAt n s.checked = .next t := by
  unfold endOfInstruction at ht
  split at ht
  · cases ht
    exact .inl rfl
  · split at ht
    · exact .inr ⟨_, ht⟩
    · rename_i hy
      have he : ({ s with traceInhibit := false } : State) = s.checked := by simp [State.checked, hy]
      split at ht
      · exact .inr ⟨_, he ▸ ht⟩
      · cases ht
        exact .inl he

section
variable {P : State → Prop}

/-- The instruction word, or the failing fetch's trap, ends as an instruction does (60 R243, R266). -/
theorem instrCycle_ends (hc : Closed P P) {s t : State} (hs : P { s with ia := s.pc, trapTaken := false })
    (ht : instrCycle s = .next t) : ∃ r, Ends P P r ∧ afterInstr r = .next t := by
  have hf := keeps_fetchWord hc _ hs
  unfold instrCycle fetchInstr at ht
  split at ht
  · rename_i w s1 heq
    rw [heq] at hf
    refine ⟨_, ?_, ht⟩
    unfold execWord
    split
    · exact exec_ends hc _ hf
    · exact fun u hu => .inr ⟨_, s1, hf, hu⟩
  · rename_i e s1 heq
    rw [heq] at hf
    exact ⟨_, fun u hu => .inr ⟨e, s1, hf, hu⟩, ht⟩
  · cases ht

/-! ## What a step keeps -/

variable {s t : State}

theorem chooseRequest_keeps (h : Stable P) (hs : P s) {q : Request} {s1 : State} (hq : chooseRequest s = some (q, s1)) : P s1 := by
  obtain ⟨k, rfl⟩ := chooseRequest_state hq
  exact h.drawn s ⟨k, 0⟩ hs

theorem acceptRequest_keeps (h : Stable P) (hs : P s) {q : Request} (ht : acceptRequest q s = .next t) : P t :=
  trapAt_keeps h.trapClosed
    (h.control _ s.pc s.mmr2 s.ia .running s.yellowPending s.traceInhibit (h.withdraw s (· ≠ q) hs)) ht

theorem endOfInstruction_keeps (h : Stable P) (hs : P s) (ht : endOfInstruction s = .next t) : P t := by
  have hc : P s.checked := h.control s s.pc s.mmr2 s.ia s.run false false hs
  rcases endOfInstruction_next_cases ht with rfl | ⟨n, htrap⟩
  · exact hc
  · exact trapAt_keeps h.trapClosed hc htrap

/-- Until the trap is marked, an exception keeps what a trap sequence keeps (60 R243, 20 R83). -/
theorem takeTrap_keeps (h : Stable P) {e : Exn} (hs : P s) (ht : takeTrap e s = .next t) :
    ∃ u, P u ∧ t = { u with trapTaken := true } := by
  obtain ⟨u, hu, rfl⟩ := takeTrap_next ht
  refine ⟨u, trapAt_keeps h.trapClosed ?_ hu, rfl⟩
  split
  · exact h.trapClosed.fault s hs
  · exact hs

/-- Every step keeps what its single changes keep, the flag of a trap among them (60 R266). -/
theorem step_keeps (h : Stable P) (hmark : ∀ s b, P s → P { s with trapTaken := b }) (hs : P s) (ht : step s = .next t) : P t := by
  rcases step_next_cases ht with rfl | ⟨q, s1, hq, ha⟩ | hi
  · exact hs
  · exact acceptRequest_keeps h (chooseRequest_keeps h hs hq) ha
  · have hfetch : P { s with ia := s.pc, trapTaken := false } :=
      h.control _ s.pc s.mmr2 s.pc s.run s.yellowPending s.traceInhibit (hmark s false hs)
    obtain ⟨r, hr, hafter⟩ := instrCycle_ends h.trapClosed.closed hfetch hi
    obtain ⟨u, hu, hend⟩ := afterInstr_next_cases hafter
    have hpu : P u := by
      rcases hr u hu with hp | ⟨e, v, hv, htrap⟩
      · exact hp
      · obtain ⟨w, hw, rfl⟩ := takeTrap_keeps h hv htrap
        exact hmark w true hw
    rcases hend with ⟨-, rfl⟩ | ⟨-, hend⟩
    · exact hmark u false hpu
    · exact endOfInstruction_keeps h hpu hend

end

end Sys2Proof.Machine
end

section
/-! SUPPORT. The three properties that steps keep: the invariant of the machine, the inputs from outside, the flag of a trap. -/

namespace Sys2Proof.Machine

/-! ## The flag of a trap -/

/-- No single change but the mark of a trap touches the flag (log 11). -/
theorem stable_trapTaken (b : Bool) : Stable fun s => s.trapTaken = b where
  setReg := by simp
  setStackPointer := by simp
  setFlags := by simp
  drawn := by simp [State.drawn]
  putByte := by simp
  putWord := by simp
  withIo := fun s r v _ hs => (withIo_registersReset s ⟨r, .anyValue⟩ _).trapTaken.trans hs
  setC := by simp
  mmuFault := by simp [State.withMmuFault]
  userReturn := by simp
  loadPsw := by simp
  withdraw := by simp
  control := by simp

/-! ## The inputs from outside -/

theorem switchesFollow_refl (s : State) : switchesFollow s s := ⟨0, rfl, rfl⟩

/-- Settings that pass in two stretches have passed in one (log 3). -/
theorem switchesFollow_drawn {s t : State} (h : switchesFollow s t) (n : Reads) : switchesFollow s (t.drawn n) := by
  obtain ⟨m, hsr, hmoves⟩ := h
  refine ⟨m + n.settings, ?_, ?_⟩
  · simp only [State.drawn, hsr, hmoves, List.take_add, List.getLastD_eq_getLast?, List.getLast?_append, Option.getD_or]
  · simp only [State.drawn, hmoves, List.drop_drop]

/-- What `t` has of the outside comes from `s`: the platform, the requests and the operator's settings (logs 3, 4, 7). -/
structure InputsFrom (s t : State) : Prop where
  switches : switchesFollow s t
  platform : t.cfg = s.cfg
  requests : ∀ q ∈ t.pending, q ∈ s.pending

theorem inputsFrom_refl (s : State) : InputsFrom s s := ⟨switchesFollow_refl s, rfl, fun _ hq => hq⟩

/-- The inputs are these four fields. -/
theorem inputsFrom_of_same {s t u : State} (h : InputsFrom s t) (hsr : u.sr = t.sr := by simp)
    (hmoves : u.switchMoves = t.switchMoves := by simp) (hcfg : u.cfg = t.cfg := by simp)
    (hpending : u.pending = t.pending := by simp) : InputsFrom s u where
  switches := by
    obtain ⟨n, h1, h2⟩ := h.switches
    exact ⟨n, hsr.trans h1, hmoves.trans h2⟩
  platform := hcfg.trans h.platform
  requests := hpending ▸ h.requests

/-- The single changes of a step take nothing from outside but what the switches and the pending requests offer. -/
theorem stable_inputsFrom (s : State) : Stable (InputsFrom s) where
  setReg := fun _ _ _ h => inputsFrom_of_same h
  setStackPointer := fun _ _ _ h => inputsFrom_of_same h
  setFlags := fun _ _ h => inputsFrom_of_same h
  drawn := fun _ n h => ⟨switchesFollow_drawn h.switches n, h.platform, h.requests⟩
  putByte := fun _ _ _ _ h => inputsFrom_of_same h
  putWord := fun _ _ _ _ _ h => inputsFrom_of_same h
  withIo := fun t r v _ h =>
    have hr := withIo_registersReset t ⟨r, .anyValue⟩ (v &&& ioBits r)
    inputsFrom_of_same h hr.sr hr.switchMoves hr.cfg hr.pending
  setC := fun _ _ _ h => inputsFrom_of_same h
  mmuFault := fun _ _ _ _ h => inputsFrom_of_same h rfl rfl rfl rfl
  userReturn := fun _ _ h => inputsFrom_of_same h
  loadPsw := fun _ _ _ _ h => inputsFrom_of_same h
  withdraw := fun _ f h => ⟨h.switches, h.platform, fun q hq => h.requests q (List.mem_of_mem_filter hq)⟩
  control := fun _ _ _ _ _ _ _ h => inputsFrom_of_same h

/-! ## The invariant of the machine -/

/-- The invariant speaks of these cells only. -/
theorem coreInv_of_same {s t : State} (h : CoreInv s) (hcfg : t.cfg = s.cfg := by simp) (hmem : t.mem = s.mem := by simp)
    (hpsw : t.psw = s.psw := by simp) (hmmr0 : t.mmr0 = s.mmr0 := by simp)
    (hpar : ∀ mode page, t.par mode page = s.par mode page := by simp [State.par])
    (hpdr : ∀ mode page, t.pdr mode page = s.pdr mode page := by simp [State.pdr])
    (hpending : t.pending = s.pending := by simp) : CoreInv t where
  platform := hcfg ▸ h.platform
  memory := hmem ▸ h.memory
  memoryBelow := hcfg ▸ hmem ▸ h.memoryBelow
  pswReserved := hpsw ▸ h.pswReserved
  pswModes := hpsw ▸ h.pswModes
  mmr0 := hmmr0 ▸ h.mmr0
  par := fun mode page => by rw [hpar]; exact h.par mode page
  pdr := fun mode page => by rw [hpdr]; exact h.pdr mode page
  requests := hpending ▸ h.requests

/-- The PSW may be replaced by one that has only its bits and no reserved mode (10 R26, R27). -/
theorem coreInv_withPsw {s : State} {p : Word} (h : CoreInv s) (hread : pswRead p = p) (hmodes : pswWritable p = true) :
    CoreInv { s with psw := p } :=
  { h with pswReserved := hread, pswModes := hmodes }

/-- The modes of the PSW that a trap loads are legal where the old ones are: CM becomes kernel, PM the old CM (60 R241). -/
theorem pswWritable_pswOfTrap {o n : Word} (h : pswWritable o = true) : pswWritable (pswOfTrap o n) = true := by
  have hcm : modeLegal (pswCM o) = true := (Bool.and_eq_true_iff.mp h).1
  rw [pswWritable, pswCM_pswOfTrap, pswPM_pswOfTrap, hcm]
  rfl

theorem pswWritable_pswOfUserReturn (p v : Word) : pswWritable (pswOfUserReturn p v) = pswWritable p := by
  rw [pswWritable, pswCM_pswOfUserReturn, pswPM_pswOfUserReturn, pswWritable]

theorem pswWritable_pswWithFlags (p : Word) (f : Flags) : pswWritable (pswWithFlags p f) = pswWritable p := by
  rw [pswWritable, pswCM_pswWithFlags, pswPM_pswWithFlags, pswWritable]

/-- Requests that are taken out of the set leave the others in their order (60 R250). -/
theorem requestsRise_filter (f : Request → Bool) {l : List Request} {j k : Nat} (hjk : j ≤ k) (h : requestsRise k l = true) :
    requestsRise j (l.filter f) = true := by
  induction l generalizing j k with
  | nil => rfl
  | cons q rest ih =>
    simp only [requestsRise, Bool.and_eq_true, decide_eq_true_eq] at h
    obtain ⟨hkq, hrest⟩ := h
    cases hf : f q with
    | true => simp [hf, requestsRise, Nat.lt_of_le_of_lt hjk hkq, ih (Nat.le_refl _) hrest]
    | false => simpa [hf] using ih (Nat.le_trans hjk (Nat.le_of_lt hkq)) hrest

theorem requestsWf_filter (f : Request → Bool) {l : List Request} (h : requestsWf l = true) : requestsWf (l.filter f) = true := by
  simp only [requestsWf, Bool.and_eq_true, List.all_eq_true] at h ⊢
  obtain ⟨hlegal, hrise⟩ := h
  exact ⟨fun q hq => hlegal q (List.mem_of_mem_filter hq), requestsRise_filter f (Nat.le_refl 0) hrise⟩

/-- MEM_TOP of a legal platform is even (00 R6). -/
theorem memTop_even {c : Config} (h : configWf c = true) : c.memTop % 2 = 0 := by
  simp only [configWf, Bool.and_eq_true, beq_iff_eq] at h
  obtain ⟨⟨⟨heven, -⟩, -⟩, -⟩ := h
  exact heven

theorem coreInv_putByte {s : State} {a : Nat} (v : Byte) (ha : a < s.cfg.memTop) (h : CoreInv s) : CoreInv (s.putByte a v) :=
  { h with
    memory := wf_memInsert s.mem a v h.memory
    memoryBelow := memBelow_memInsert s.mem v h.memoryBelow ha }

theorem coreInv_putWord {s : State} {a : Nat} (v : Word) (heven : a % 2 = 0) (ha : a < s.cfg.memTop) (h : CoreInv s) :
    CoreInv (s.putWord a v) := by
  have htop := memTop_even h.platform
  exact coreInv_putByte _ (by rw [putByte_cfg]; omega) (coreInv_putByte _ ha h)

theorem coreInv_setPar {s : State} {mode : Mode} {page : BitVec 3} {v : Word} (hv : v &&& parMask = v) (h : CoreInv s) :
    CoreInv (s.setPar mode page v) := by
  have hpar : ∀ m p, (s.setPar mode page v).par m p &&& parMask = (s.setPar mode page v).par m p := by
    intro m p
    rw [setPar_par]
    split
    · exact hv
    · exact h.par m p
  cases mode <;> exact { h with par := hpar }

theorem coreInv_setPdr {s : State} {mode : Mode} {page : BitVec 3} {v : Word} (hv : v &&& pdrMask = v) (h : CoreInv s) :
    CoreInv (s.setPdr mode page v) := by
  have hpdr : ∀ m p, (s.setPdr mode page v).pdr m p &&& pdrMask = (s.setPdr mode page v).pdr m p := by
    intro m p
    rw [setPdr_pdr]
    split
    · exact hv
    · exact h.pdr m p
  cases mode <;> exact { h with pdr := hpdr }

/-- A masked word has only the bits of the mask. -/
theorem and_mask_idem (v m : Word) : v &&& m &&& m = v &&& m := by rw [BitVec.and_assoc, BitVec.and_self]

/-- A register of the I/O page may be loaded with any word of its bits, the PSW without a reserved mode (10 R26, 20 R71, R72, R78). -/
theorem coreInv_withIo {s : State} {r : IoReg} {v : Word} (hv : r = .psw → pswWritable v = true) (h : CoreInv s) :
    CoreInv (s.withIo r (v &&& ioBits r)) := by
  cases r with
  | pdr mode page => exact coreInv_setPdr (and_mask_idem v _) h
  | par mode page => exact coreInv_setPar (and_mask_idem v _) h
  | switches => exact { h with }
  | mmr0 => exact { h with mmr0 := and_mask_idem v _ }
  | mmr2 => exact { h with }
  | psw => exact coreInv_withPsw h (pswRead_idem v) ((pswWritable_pswRead v).trans (hv rfl))

/-- Every single change of a step keeps the invariant. -/
theorem stable_coreInv : Stable CoreInv where
  setReg := fun _ _ _ h => coreInv_of_same h
  setStackPointer := fun _ _ _ h => coreInv_of_same h
  setFlags := fun s f h => coreInv_withPsw h (by rw [pswRead_pswWithFlags, h.pswReserved])
    ((pswWritable_pswWithFlags s.psw f).trans h.pswModes)
  drawn := fun _ _ h => { h with }
  putByte := fun _ _ v ha h => coreInv_putByte v ha h
  putWord := fun _ _ v heven ha h => coreInv_putWord v heven ha h
  withIo := fun _ _ _ hv h => coreInv_withIo hv h
  setC := fun _ mode page h => coreInv_setPdr (pdrSetC_masked _ (h.pdr mode page)) h
  mmuFault := fun s mode va _ h => { h with mmr0 := mmr0OfFault_masked s.mmr0 mode (pageOf va) _ h.mmr0 }
  userReturn := fun s v h => coreInv_withPsw h (by rw [pswRead_pswOfUserReturn, h.pswReserved])
    ((pswWritable_pswOfUserReturn s.psw v).trans h.pswModes)
  loadPsw := fun _ _ _ hs h => coreInv_withPsw h (pswRead_pswOfTrap _ _) (pswWritable_pswOfTrap hs.pswModes)
  withdraw := fun _ f h => { h with requests := requestsWf_filter f h.requests }
  control := fun _ _ _ _ _ _ _ h => { h with }

/-! ## Between steps nothing is left of an instruction -/

/-- Nothing that lives only inside an instruction is set (10 R35, log 11). -/
structure Idle (s : State) : Prop where
  noYellow : s.yellowPending = false
  noInhibit : s.traceInhibit = false
  noTrap : s.trapTaken = false

theorem idle_of_trapAt {n : Word} {s t : State} (hs : s.trapTaken = false) (ht : trapAt n s = .next t) : Idle t := by
  obtain ⟨hyellow, hinhibit⟩ := trapAt_clears ht
  exact ⟨hyellow, hinhibit, trapAt_keeps (stable_trapTaken false).trapClosed hs ht⟩

theorem idle_of_endOfInstruction {s t : State} (hs : s.trapTaken = false) (ht : endOfInstruction s = .next t) : Idle t := by
  rcases endOfInstruction_next_cases ht with rfl | ⟨n, htrap⟩
  · exact ⟨rfl, rfl, hs⟩
  · exact idle_of_trapAt (s := s.checked) hs htrap

/-- After an instruction nothing is left of it: a trap sequence cleared the rest, or the checks at its end did (60 R241, R256). -/
theorem idle_of_instrCycle {s t : State} (ht : instrCycle s = .next t) : Idle t := by
  obtain ⟨r, hr, hafter⟩ := instrCycle_ends (stable_trapTaken false).trapClosed.closed rfl ht
  obtain ⟨u, hu, ⟨hmarked, rfl⟩ | ⟨hunmarked, hend⟩⟩ := afterInstr_next_cases hafter
  · rcases hr u hu with hfalse | ⟨e, v, -, htrap⟩
    · rw [hmarked] at hfalse
      cases hfalse
    · obtain ⟨w, hw, rfl⟩ := takeTrap_next htrap
      obtain ⟨hyellow, hinhibit⟩ := trapAt_clears hw
      exact ⟨hyellow, hinhibit, rfl⟩
  · exact idle_of_endOfInstruction hunmarked hend

theorem step_idle {s t : State} (hs : Idle s) (ht : step s = .next t) : Idle t := by
  rcases step_next_cases ht with rfl | ⟨q, s1, hq, ha⟩ | hi
  · exact hs
  · have h1 : s1.trapTaken = false := chooseRequest_keeps (stable_trapTaken false) hs.noTrap hq
    refine idle_of_trapAt ?_ ha
    exact h1
  · exact idle_of_instrCycle hi

theorem coreInv_reset : CoreInv State.reset where
  platform := rfl
  memory := wf_reset
  memoryBelow := rfl
  pswReserved := by decide
  pswModes := by decide
  mmr0 := by decide
  par := by intro mode; cases mode <;> decide
  pdr := by intro mode; cases mode <;> decide
  requests := rfl

end Sys2Proof.Machine
end

section
/-! SUPPORT. What a store into the I/O page does (20 R61, R62, R65). -/

namespace Sys2Proof.Machine

/-- The access picks the byte by its physical address, the statement by the virtual one; both by the lowest bit alone (20 R62). -/
theorem withByte_eq_byteReplaced {pa : PhysAddr} {va : Word} (hodd : pa.getLsbD 0 = va.getLsbD 0) (old : Word) (b : Byte) :
    withByte old pa b = byteReplaced old va b := by
  apply BitVec.eq_of_getLsbD_eq
  intro i hi
  rw [withByte, byteReplaced, hodd]
  cases va.getLsbD 0 with
  | true =>
    simp only [if_true, getLsbD_wordOf, lowByte, BitVec.getLsbD_or, BitVec.getLsbD_and, BitVec.getLsbD_extractLsb',
      BitVec.getLsbD_shiftLeft, BitVec.getLsbD_setWidth]
    interval_cases i <;> simp
  | false =>
    simp only [Bool.false_eq_true, if_false, getLsbD_wordOf, highByte, BitVec.getLsbD_or, BitVec.getLsbD_and,
      BitVec.getLsbD_extractLsb', BitVec.getLsbD_setWidth]
    interval_cases i <;> simp

/-- The lowest bits of a virtual and of its physical address are the same (20 R52, R74). -/
theorem physAddr_getLsbD_zero (s : State) (mode : Mode) (va : Word) : (s.physAddr mode va).getLsbD 0 = va.getLsbD 0 := by
  rw [getLsbD_zero_eq, getLsbD_zero_eq, physAddr_parity]

/-- The word a byte store completes: DR at 0777570, else what a read gives (20 R62, R66). -/
theorem ioOld_eq (s : State) (r : IoReg) : s.ioOld r = if r = .switches then s.dr else s.ioRead r := by cases r <;> rfl

theorem hitsPsw_of_ioRegAt {pa : PhysAddr} {r : IoReg} (h : ioRegAt pa = some r) : hitsPsw pa = (r == .psw) := by
  rw [hitsPsw, h]
  rfl

theorem hitsPsw_of_none {pa : PhysAddr} (h : ioRegAt pa = none) : hitsPsw pa = false := by
  rw [hitsPsw, h]
  rfl

section
variable {s : State} {mode : Mode} {va : Word}

/-- What follows the physical write of a store that was translated in `s` (20 R61, R65, R76). -/
def finishWrite (mode : Mode) (va : Word) (s : State) : EStateM.Result Abort State Unit → EStateM.Result Abort State Bool
  | .ok _ t => .ok (hitsPsw (s.physAddr mode va)) (t.afterWrite (mmuEnabled s.mmr0) mode va)
  | .error e t => .error e t

/-- A write whose translation is allowed is the physical write and what follows it (20 R61). -/
theorem memWriteWordIn_of_allowed (v : Word) (heven : va.getLsbD 0 = false)
    (hallowed : mmuEnabled s.mmr0 = true → s.accessReasons mode va .write = 0) :
    memWriteWordIn mode va v s = finishWrite mode va s (physWriteWord (s.physAddr mode va) v s) := by
  rw [memWriteWordIn_apply, if_neg (Bool.eq_false_iff.mp heven), if_neg fun hfault => hfault.2 (hallowed hfault.1)]
  cases physWriteWord (s.physAddr mode va) v s <;> rfl

theorem memWriteByteIn_of_allowed (b : Byte) (hallowed : mmuEnabled s.mmr0 = true → s.accessReasons mode va .write = 0) :
    memWriteByteIn mode va b s = finishWrite mode va s (physWriteByte (s.physAddr mode va) b s) := by
  rw [memWriteByteIn_apply, if_neg fun hfault => hfault.2 (hallowed hfault.1)]
  cases physWriteByte (s.physAddr mode va) b s <;> rfl

theorem physWriteWord_ioReg {pa : PhysAddr} {r : IoReg} (v : Word) (htop : ¬ pa.toNat < s.cfg.memTop) (hr : ioRegAt pa = some r) :
    physWriteWord pa v s = ioWrite r v s := by simp only [physWriteWord, if_neg htop, hr]

theorem physWriteByte_ioReg {pa : PhysAddr} {r : IoReg} (b : Byte) (htop : ¬ pa.toNat < s.cfg.memTop) (hr : ioRegAt pa = some r) :
    physWriteByte pa b s = ioWrite r (withByte (s.ioOld r) pa b) s := by simp only [physWriteByte, if_neg htop, hr]

theorem physWriteWord_device {pa : PhysAddr} (v : Word) (htop : ¬ pa.toNat < s.cfg.memTop) (hr : ioRegAt pa = none)
    (hdev : pa.toNat ∈ s.cfg.deviceAddrs) : physWriteWord pa v s = .ok () s := by
  simp only [physWriteWord, if_neg htop, hr, if_pos hdev]

theorem physWriteByte_device {pa : PhysAddr} (b : Byte) (htop : ¬ pa.toNat < s.cfg.memTop) (hr : ioRegAt pa = none)
    (hdev : pa.toNat ∈ s.cfg.deviceAddrs) : physWriteByte pa b s = .ok () s := by
  simp only [physWriteByte, if_neg htop, hr, if_pos hdev]

/-- At the address of a register only a write of the PSW answers that it was reached (20 R65). -/
theorem finishWrite_ioReg {r : IoReg} (hr : ioRegAt (s.physAddr mode va) = some r) (x : EStateM.Result Abort State Unit) :
    finishWrite mode va s x = afterIoWrite mode va r s x := by
  cases x with
  | ok _ t => rw [finishWrite, hitsPsw_of_ioRegAt hr]; rfl
  | error e t => rfl

theorem finishWrite_device {t : State} (hr : ioRegAt (s.physAddr mode va) = none) :
    finishWrite mode va s (.ok () t) = .ok false (t.afterWrite (mmuEnabled s.mmr0) mode va) := by
  rw [finishWrite, hitsPsw_of_none hr]

/-- A word stored at the address of a register is the write of that register (20 R62). -/
theorem memWriteWordIn_ioReg {r : IoReg} (v : Word) (heven : va.getLsbD 0 = false)
    (hallowed : mmuEnabled s.mmr0 = true → s.accessReasons mode va .write = 0)
    (htop : ¬ (s.physAddr mode va).toNat < s.cfg.memTop) (hr : ioRegAt (s.physAddr mode va) = some r) :
    memWriteWordIn mode va v s = afterIoWrite mode va r s (ioWrite r v s) := by
  rw [memWriteWordIn_of_allowed v heven hallowed, finishWrite_ioReg hr, physWriteWord_ioReg v htop hr]

/-- A byte stored there is the write of the old word with that byte replaced (20 R62, R66). -/
theorem memWriteByteIn_ioReg {r : IoReg} (b : Byte) (hallowed : mmuEnabled s.mmr0 = true → s.accessReasons mode va .write = 0)
    (htop : ¬ (s.physAddr mode va).toNat < s.cfg.memTop) (hr : ioRegAt (s.physAddr mode va) = some r) :
    memWriteByteIn mode va b s = afterIoWrite mode va r s
      (ioWrite r (byteReplaced (if r = .switches then s.dr else s.ioRead r) va b) s) := by
  rw [memWriteByteIn_of_allowed b hallowed, finishWrite_ioReg hr, physWriteByte_ioReg b htop hr,
    withByte_eq_byteReplaced (physAddr_getLsbD_zero s mode va), ioOld_eq]

/-- A word stored at an address of DEVICES changes nothing but bit C of its page (20 R61, R62, log 8). -/
theorem memWriteWordIn_device (v : Word) (heven : va.getLsbD 0 = false)
    (hallowed : mmuEnabled s.mmr0 = true → s.accessReasons mode va .write = 0)
    (htop : ¬ (s.physAddr mode va).toNat < s.cfg.memTop) (hr : ioRegAt (s.physAddr mode va) = none)
    (hdev : (s.physAddr mode va).toNat ∈ s.cfg.deviceAddrs) :
    memWriteWordIn mode va v s = .ok false (s.afterWrite (mmuEnabled s.mmr0) mode va) := by
  rw [memWriteWordIn_of_allowed v heven hallowed, physWriteWord_device v htop hr hdev, finishWrite_device hr]

theorem memWriteByteIn_device (b : Byte) (hallowed : mmuEnabled s.mmr0 = true → s.accessReasons mode va .write = 0)
    (htop : ¬ (s.physAddr mode va).toNat < s.cfg.memTop) (hr : ioRegAt (s.physAddr mode va) = none)
    (hdev : (s.physAddr mode va).toNat ∈ s.cfg.deviceAddrs) :
    memWriteByteIn mode va b s = .ok false (s.afterWrite (mmuEnabled s.mmr0) mode va) := by
  rw [memWriteByteIn_of_allowed b hallowed, physWriteByte_device b htop hr hdev, finishWrite_device hr]

end

/-! ## What the register holds afterwards -/

theorem ioRead_par_setPar (s : State) (mode : Mode) (page : BitVec 3) (v : Word) :
    (s.setPar mode page (v &&& parMask)).ioRead (.par mode page) = v &&& parMask := by
  simp only [State.ioRead, setPar_par, and_self, if_true, and_mask_idem]

/-- A written PDR reads without C, which a write clears (20 R72). -/
theorem ioRead_pdr_setPdr (s : State) (mode : Mode) (page : BitVec 3) (v : Word) :
    (s.setPdr mode page (v &&& pdrWriteMask)).ioRead (.pdr mode page) = v &&& pdrWriteMask := by
  simp only [State.ioRead, setPdr_pdr, and_self, if_true, BitVec.and_assoc, pdrWriteMask_masked]

theorem pdrC_of_written (v : Word) : pdrC (v &&& pdrWriteMask) = false := by
  rw [pdrC, BitVec.getLsbD_and, show pdrWriteMask.getLsbD 6 = false by decide, Bool.and_false]

/-- A mode field is legal as kernel or as user (10 R26). -/
theorem modeLegal_iff (b : BitVec 2) : modeLegal b = true ↔ b = 0b00 ∨ b = 0b11 := by
  simp only [modeLegal, Bool.or_eq_true, beq_iff_eq]

end Sys2Proof.Machine
end

section
/-! The statements about the state that are settled: reset, inputs, invariant, registers of the I/O page, stack. -/

namespace Sys2Proof.Proofs

open Sys2Proof.Machine

/-- Settles O10: every cell of the power-up state, read off. -/
theorem resetState : Obligations.ResetState := by
  unfold Obligations.ResetState
  have hpaging : ∀ mode page, State.reset.par mode page = 0 ∧ State.reset.pdr mode page = 0 := by
    intro mode
    cases mode <;> decide
  have hcells : ∀ c, State.reset.cell c = 0 := by
    intro c
    cases c <;> rfl
  exact ⟨hcells, rfl, rfl, rfl, rfl, rfl, rfl, rfl, rfl, rfl, hpaging, fun _ => rfl, rfl, rfl, rfl⟩

/-- Settles O11. -/
theorem resetMeetsInv : Obligations.ResetMeetsInv := { coreInv_reset with noYellow := rfl, noInhibit := rfl, noTrap := rfl }

/-- Settles O12: the single changes of a step keep the registers, memory and requests in their form, and whatever ends the step
leaves nothing of an instruction behind. -/
theorem stepKeepsInv : Obligations.StepKeepsInv := by
  intro s t hs ht
  have hcore : CoreInv t := step_keeps stable_coreInv (fun _ _ h => { h with }) hs.toCoreInv ht
  obtain ⟨hyellow, hinhibit, htrap⟩ := step_idle ⟨hs.noYellow, hs.noInhibit, hs.noTrap⟩ ht
  exact ⟨hcore, hyellow, hinhibit, htrap⟩

/-- Settles O9: from `s` itself on, every change of the step takes its inputs from `s`. -/
theorem stepKeepsInputs : Obligations.StepKeepsInputs := by
  intro s t ht
  have hmark : ∀ u b, InputsFrom s u → InputsFrom s { u with trapTaken := b } := fun _ _ h => inputsFrom_of_same h
  obtain ⟨hswitches, hplatform, hrequests⟩ := step_keeps (stable_inputsFrom s) hmark (inputsFrom_refl s) ht
  exact ⟨hswitches, hplatform, hrequests⟩

/-- Settles O26: the registers one by one, then stores into the I/O page. -/
theorem ioRegisterWrites : Obligations.IoRegisterWrites := by
  intro s v
  refine ⟨?par, ?pdr, ?mmr0, rfl, ⟨_, rfl, rfl, rfl⟩, ?psw, ?refused, ?legal, ?stores, ?devices⟩
  case par => exact fun mode page => ⟨_, rfl, rfl, ioRead_par_setPar s mode page v⟩
  case pdr =>
    intro mode page
    have hheld : (s.setPdr mode page (v &&& pdrWriteMask)).pdr mode page = v &&& pdrWriteMask := by simp [setPdr_pdr]
    refine ⟨_, rfl, rfl, ioRead_pdr_setPdr s mode page v, ?_⟩
    rw [hheld]
    exact pdrC_of_written v
  case mmr0 => exact ⟨_, rfl, rfl, and_mask_idem v mmr0Mask⟩
  case psw =>
    intro hw
    exact ⟨{ s with psw := pswRead v }, by simp [ioWrite, hw], rfl, pswRead_idem v⟩
  case refused =>
    intro hw
    simp [ioWrite, hw]
  case legal => rw [pswWritable, Bool.and_eq_true, modeLegal_iff, modeLegal_iff, pswCM, pswPM]
  case stores =>
    exact fun mode va b r hallowed htop hr =>
      ⟨fun heven => memWriteWordIn_ioReg v heven hallowed htop hr, memWriteByteIn_ioReg b hallowed htop hr⟩
  case devices =>
    exact fun mode va b hallowed htop hr hdev =>
      ⟨fun heven => memWriteWordIn_device v heven hallowed htop hr hdev, memWriteByteIn_device b hallowed htop hr hdev⟩

/-- Settles O27: both ends of the one access of `push` and of `pop`. -/
theorem pushAndPop : Obligations.PushAndPop := by
  intro s v
  refine ⟨fun hit t hw => ?_, fun e t hw => ?_, fun x t hr => ?_, fun e t hr => ?_⟩
  · rw [push_apply, hw]
    rfl
  · rw [push_apply, hw]
  · rw [pop_apply, hr]
  · rw [pop_apply, hr]

end Sys2Proof.Proofs
end

section
/-! SUPPORT. Virtual accesses check by check (20 R54 to R62): what a turned-down access leaves, what answers a read, what a store into
memory changes. -/

namespace Sys2Proof.Machine

section
variable {s : State} {mode : Mode} {va : Word}

/-! ## Translations, and accesses that are turned down -/

theorem translate_of_fault {kind : Access} (hfault : mmuEnabled s.mmr0 = true ∧ s.accessReasons mode va kind ≠ 0) :
    translate mode va kind s = .error (.raised .mmuFault) (s.withMmuFault mode va kind) := by
  rw [translate_apply, if_pos hfault]

theorem translate_of_allowed {kind : Access} (hallowed : mmuEnabled s.mmr0 = true → s.accessReasons mode va kind = 0) :
    translate mode va kind s = .ok (s.physAddr mode va) s := by
  rw [translate_apply, if_neg fun hfault => hfault.2 (hallowed hfault.1)]

theorem memReadWordIn_odd (hodd : va.getLsbD 0 = true) : memReadWordIn mode va s = .error (.raised .busError) s := by
  rw [memReadWordIn_apply, if_pos hodd]

theorem memWriteWordIn_odd (v : Word) (hodd : va.getLsbD 0 = true) : memWriteWordIn mode va v s = .error (.raised .busError) s := by
  rw [memWriteWordIn_apply, if_pos hodd]

theorem memReadWordIn_mmuFault (heven : va.getLsbD 0 = false) (hfault : mmuEnabled s.mmr0 = true ∧ s.accessReasons mode va .read ≠ 0) :
    memReadWordIn mode va s = .error (.raised .mmuFault) (s.withMmuFault mode va .read) := by
  rw [memReadWordIn_apply, if_neg (Bool.eq_false_iff.mp heven), if_pos hfault]

theorem memReadByteIn_mmuFault (hfault : mmuEnabled s.mmr0 = true ∧ s.accessReasons mode va .read ≠ 0) :
    memReadByteIn mode va s = .error (.raised .mmuFault) (s.withMmuFault mode va .read) := by
  rw [memReadByteIn_apply, if_pos hfault]

theorem memWriteWordIn_mmuFault (v : Word) (heven : va.getLsbD 0 = false)
    (hfault : mmuEnabled s.mmr0 = true ∧ s.accessReasons mode va .write ≠ 0) :
    memWriteWordIn mode va v s = .error (.raised .mmuFault) (s.withMmuFault mode va .write) := by
  rw [memWriteWordIn_apply, if_neg (Bool.eq_false_iff.mp heven), if_pos hfault]

theorem memWriteByteIn_mmuFault (b : Byte) (hfault : mmuEnabled s.mmr0 = true ∧ s.accessReasons mode va .write ≠ 0) :
    memWriteByteIn mode va b s = .error (.raised .mmuFault) (s.withMmuFault mode va .write) := by
  rw [memWriteByteIn_apply, if_pos hfault]

/-! ## Reads that are allowed -/

/-- A read whose translation is allowed is the physical read (20 R61). -/
theorem memReadWordIn_of_allowed (heven : va.getLsbD 0 = false)
    (hallowed : mmuEnabled s.mmr0 = true → s.accessReasons mode va .read = 0) :
    memReadWordIn mode va s = physReadWord (s.physAddr mode va) s := by
  rw [memReadWordIn_apply, if_neg (Bool.eq_false_iff.mp heven), if_neg fun hfault => hfault.2 (hallowed hfault.1)]

theorem memReadByteIn_of_allowed (hallowed : mmuEnabled s.mmr0 = true → s.accessReasons mode va .read = 0) :
    memReadByteIn mode va s = physReadByte (s.physAddr mode va) s := by
  rw [memReadByteIn_apply, if_neg fun hfault => hfault.2 (hallowed hfault.1)]

end

/-! ## What answers a physical access (20 R57, R62) -/

section
variable {s : State} {pa : PhysAddr}

theorem physReadWord_memory (htop : pa.toNat < s.cfg.memTop) : physReadWord pa s = .ok (s.wordAt pa.toNat) s := by
  rw [physReadWord, if_pos htop]

theorem physReadByte_memory (htop : pa.toNat < s.cfg.memTop) : physReadByte pa s = .ok (s.byteAt pa.toNat) s := by
  rw [physReadByte, if_pos htop]

theorem physReadWord_ioReg {r : IoReg} (htop : ¬ pa.toNat < s.cfg.memTop) (hr : ioRegAt pa = some r) :
    physReadWord pa s = .ok (s.ioRead r) (s.afterIoRead r) := by simp only [physReadWord, if_neg htop, hr]

theorem physReadByte_ioReg {r : IoReg} (htop : ¬ pa.toNat < s.cfg.memTop) (hr : ioRegAt pa = some r) :
    physReadByte pa s = .ok (byteOf (s.ioRead r) pa) (s.afterIoRead r) := by simp only [physReadByte, if_neg htop, hr]

theorem physReadWord_device (htop : ¬ pa.toNat < s.cfg.memTop) (hr : ioRegAt pa = none) (hdev : pa.toNat ∈ s.cfg.deviceAddrs) :
    physReadWord pa s = drawWord s := by simp only [physReadWord, if_neg htop, hr, if_pos hdev]

theorem physReadByte_device (htop : ¬ pa.toNat < s.cfg.memTop) (hr : ioRegAt pa = none) (hdev : pa.toNat ∈ s.cfg.deviceAddrs) :
    physReadByte pa s = drawByte s := by simp only [physReadByte, if_neg htop, hr, if_pos hdev]

theorem physReadWord_nothing (htop : ¬ pa.toNat < s.cfg.memTop) (hr : ioRegAt pa = none) (hdev : pa.toNat ∉ s.cfg.deviceAddrs) :
    physReadWord pa s = .error (.raised .busError) s := by simp only [physReadWord, if_neg htop, hr, if_neg hdev]

theorem physReadByte_nothing (htop : ¬ pa.toNat < s.cfg.memTop) (hr : ioRegAt pa = none) (hdev : pa.toNat ∉ s.cfg.deviceAddrs) :
    physReadByte pa s = .error (.raised .busError) s := by simp only [physReadByte, if_neg htop, hr, if_neg hdev]

theorem physWriteWord_memory (v : Word) (htop : pa.toNat < s.cfg.memTop) : physWriteWord pa v s = .ok () (s.putWord pa.toNat v) := by
  rw [physWriteWord, if_pos htop]

theorem physWriteByte_memory (b : Byte) (htop : pa.toNat < s.cfg.memTop) : physWriteByte pa b s = .ok () (s.putByte pa.toNat b) := by
  rw [physWriteByte, if_pos htop]

theorem physWriteWord_nothing (v : Word) (htop : ¬ pa.toNat < s.cfg.memTop) (hr : ioRegAt pa = none)
    (hdev : pa.toNat ∉ s.cfg.deviceAddrs) : physWriteWord pa v s = .error (.raised .busError) s := by
  simp only [physWriteWord, if_neg htop, hr, if_neg hdev]

theorem physWriteByte_nothing (b : Byte) (htop : ¬ pa.toNat < s.cfg.memTop) (hr : ioRegAt pa = none)
    (hdev : pa.toNat ∉ s.cfg.deviceAddrs) : physWriteByte pa b s = .error (.raised .busError) s := by
  simp only [physWriteByte, if_neg htop, hr, if_neg hdev]

end

/-- Only a read of the switches lets the operator act (20 R66, log 3). -/
theorem afterIoRead_eq_ite (s : State) (r : IoReg) : s.afterIoRead r = if r = .switches then s.operatorMoves else s := by
  cases r <;> rfl

/-- The byte of a register is picked by the lowest bit of the virtual address (20 R62). -/
theorem byteOf_physAddr (v : Word) (s : State) (mode : Mode) (va : Word) :
    byteOf v (s.physAddr mode va) = if va.getLsbD 0 = true then highByte v else lowByte v := by
  rw [byteOf, physAddr_getLsbD_zero]

/-! ## Registers stand above memory -/

/-- No register of the I/O page stands below 0760000 (20 R64). -/
theorem ioRegAt_eq_none_of_lt {pa : PhysAddr} (h : pa.toNat < 0o760000) : ioRegAt pa = none := by
  have hset : ∀ base, 0o760000 ≤ base → inSet pa.toNat base = false := by
    intro base hbase
    simp only [inSet, Bool.and_eq_false_iff, decide_eq_false_iff_not]
    omega
  simp only [ioRegAt, hset 0o772300 (by decide), hset 0o772340 (by decide), hset 0o777600 (by decide), hset 0o777640 (by decide)]
  rw [if_neg nofun, if_neg nofun, if_neg nofun, if_neg nofun, if_neg (by omega), if_neg (by omega), if_neg (by omega),
    if_neg (by omega)]

/-- On a legal platform memory ends where the I/O page begins (00 R6). -/
theorem memTop_le {c : Config} (h : configWf c = true) : c.memTop ≤ 0o760000 := by
  simp only [configWf, Bool.and_eq_true, decide_eq_true_eq] at h
  obtain ⟨⟨-, hle⟩, -⟩ := h
  exact hle

/-- On a legal platform a store into memory does not reach the PSW (00 R6, 20 R64). -/
theorem hitsPsw_of_memory {c : Config} {pa : PhysAddr} (hplatform : configWf c = true) (htop : pa.toNat < c.memTop) :
    hitsPsw pa = false := hitsPsw_of_none (ioRegAt_eq_none_of_lt (Nat.lt_of_lt_of_le htop (memTop_le hplatform)))

/-! ## What marking the page of a write changes: bit C of one PDR (20 R76) -/

section
variable (s : State) (on : Bool) (mode : Mode) (va : Word)

@[simp] theorem afterWrite_mmr0 : (s.afterWrite on mode va).mmr0 = s.mmr0 := by cases on <;> simp [State.afterWrite]

@[simp] theorem afterWrite_cfg : (s.afterWrite on mode va).cfg = s.cfg := by cases on <;> simp [State.afterWrite]

@[simp] theorem afterWrite_byteAt (a : Nat) : (s.afterWrite on mode va).byteAt a = s.byteAt a := by
  cases on <;> simp [State.afterWrite, State.byteAt]

@[simp] theorem afterWrite_wordAt (a : Nat) : (s.afterWrite on mode va).wordAt a = s.wordAt a := by
  simp only [State.wordAt, afterWrite_byteAt]

@[simp] theorem afterWrite_cell (c : RegCell) : (s.afterWrite on mode va).cell c = s.cell c := by
  cases on <;> cases c <;> simp [State.afterWrite, State.cell]

@[simp] theorem afterWrite_par (m : Mode) (p : BitVec 3) : (s.afterWrite on mode va).par m p = s.par m p := by
  cases on <;> simp [State.afterWrite]

theorem afterWrite_pdr (m : Mode) (p : BitVec 3) :
    (s.afterWrite on mode va).pdr m p = if on = true ∧ m = mode ∧ p = pageOf va then pdrSetC (s.pdr m p) else s.pdr m p := by
  cases on
  · simp [State.afterWrite]
  · rw [State.afterWrite, if_pos rfl, setPdr_pdr]
    by_cases hpage : m = mode ∧ p = pageOf va
    · obtain ⟨rfl, rfl⟩ := hpage
      simp
    · simp [hpage]

/-- Marking a page sets bit C of its PDR or leaves the PDR as it is. -/
theorem afterWrite_pdr_or (m : Mode) (p : BitVec 3) :
    (s.afterWrite on mode va).pdr m p = pdrSetC (s.pdr m p) ∨ (s.afterWrite on mode va).pdr m p = s.pdr m p := by
  rw [afterWrite_pdr]
  exact ite_eq_or_eq ..

/-- Marking a page has no part in where an address maps (20 R74, R76). -/
@[simp] theorem afterWrite_physAddr (m : Mode) (x : Word) : (s.afterWrite on mode va).physAddr m x = s.physAddr m x := by
  rcases afterWrite_pdr_or s on mode va m (pageOf x) with hpdr | hpdr <;> simp [State.physAddr, hpdr]

/-- Marking a page has no part in what the MMU allows (20 R74, R76). -/
@[simp] theorem afterWrite_accessReasons (m : Mode) (x : Word) (kind : Access) :
    (s.afterWrite on mode va).accessReasons m x kind = s.accessReasons m x kind := by
  rcases afterWrite_pdr_or s on mode va m (pageOf x) with hpdr | hpdr <;> simp [State.accessReasons, hpdr]

end

/-! ## Stores into memory (20 R54, R61, R76) -/

section
variable {s : State} {mode : Mode} {va : Word}

theorem memWriteWordIn_memory (v : Word) (heven : va.getLsbD 0 = false)
    (hallowed : mmuEnabled s.mmr0 = true → s.accessReasons mode va .write = 0) (htop : (s.physAddr mode va).toNat < s.cfg.memTop) :
    memWriteWordIn mode va v s = .ok (hitsPsw (s.physAddr mode va))
      ((s.putWord (s.physAddr mode va).toNat v).afterWrite (mmuEnabled s.mmr0) mode va) := by
  rw [memWriteWordIn_of_allowed v heven hallowed, physWriteWord_memory v htop, finishWrite]

theorem memWriteByteIn_memory (b : Byte) (hallowed : mmuEnabled s.mmr0 = true → s.accessReasons mode va .write = 0)
    (htop : (s.physAddr mode va).toNat < s.cfg.memTop) :
    memWriteByteIn mode va b s = .ok (hitsPsw (s.physAddr mode va))
      ((s.putByte (s.physAddr mode va).toNat b).afterWrite (mmuEnabled s.mmr0) mode va) := by
  rw [memWriteByteIn_of_allowed b hallowed, physWriteByte_memory b htop, finishWrite]

/-- A word write that completed was at an even address and was not turned down (20 R56, R61, R74). -/
theorem memWriteWordIn_ok_allowed {v : Word} {hit : Bool} {t : State} (h : memWriteWordIn mode va v s = .ok hit t) :
    va.getLsbD 0 = false ∧ (mmuEnabled s.mmr0 = true → s.accessReasons mode va .write = 0) := by
  have heven : va.getLsbD 0 = false := by
    refine Bool.eq_false_iff.mpr fun hodd => ?_
    rw [memWriteWordIn_odd v hodd] at h
    cases h
  refine ⟨heven, fun hon => by_contra fun hreasons => ?_⟩
  rw [memWriteWordIn_mmuFault v heven ⟨hon, hreasons⟩] at h
  cases h

/-- What a store that changed the memory alone leaves of the rest, bit C of its page aside (20 R61, R76). -/
theorem memoryStore_frame {u : State} (hu : u = { s with mem := u.mem }) :
    let t := u.afterWrite (mmuEnabled s.mmr0) mode va
    cellsKept s t [] ∧ t.pc = s.pc ∧ t.psw = s.psw ∧ t.sr = s.sr ∧ t.switchMoves = s.switchMoves ∧
      othersAfterStore mode s (.mem va false) s t := by
  rw [hu]
  intro t
  have hfields : t.pc = s.pc ∧ t.psw = s.psw ∧ t.sr = s.sr ∧ t.switchMoves = s.switchMoves ∧ t.mmr2 = s.mmr2 ∧
      t.pending = s.pending ∧ t.traceInhibit = s.traceInhibit ∧ t.run = s.run ∧ t.ia = s.ia ∧ t.dr = s.dr ∧
      t.yellowPending = s.yellowPending := by
    simp only [t, State.afterWrite]
    split <;> simp
  obtain ⟨hpc, hpsw, hsr, hmoves, hmmr2, hpending, hinhibit, hrun, hia, hdr, hyellow⟩ := hfields
  have hcells : cellsKept s t [] := fun c _ => (afterWrite_cell _ _ _ _ c).trans (by cases c <;> rfl)
  have hpar : ∀ mode' page, t.par mode' page = s.par mode' page := fun _ _ => afterWrite_par ..
  have hpdr : ∀ mode' page, t.pdr mode' page =
      if writtenPage mode s (.mem va false) = some (mode', page) then pdrSetC (s.pdr mode' page) else s.pdr mode' page := by
    intro mode' page
    refine (afterWrite_pdr _ _ _ _ mode' page).trans (if_congr ?_ rfl rfl)
    rw [writtenPage]
    cases mmuEnabled s.mmr0 <;> simp [eq_comm]
  refine ⟨hcells, hpc, hpsw, hsr, hmoves, ⟨0, hsr, hmoves⟩, hmmr2, hpending, hinhibit, hrun, hia, afterWrite_cfg .., fun _ => hdr,
    fun _ => afterWrite_mmr0 .., fun mode' page _ => hpar mode' page, fun mode' page _ => hpdr mode' page, ?_⟩
  rw [hyellow, show yellowPush s.mode (.mem va false) = false from rfl, Bool.or_false]

end

end Sys2Proof.Machine
end

section
/-! SUPPORT. The mapping of addresses in numbers, and the fields of MMR0 after a fault (20 R52, R70 to R78). -/

namespace Sys2Proof.Machine

/-- The fixed mapping in numbers (20 R52). -/
theorem toNat_fixedMap (va : Word) :
    (fixedMap va).toNat = if va.toNat < 0o160000 then va.toNat else va.toNat + 0o600000 := by
  have hva := va.isLt
  have hcond : va < 0o160000#16 ↔ va.toNat < 0o160000 := BitVec.lt_def
  by_cases hlow : va.toNat < 0o160000
  · rw [fixedMap, if_pos (hcond.mpr hlow), if_pos hlow, BitVec.toNat_setWidth]
    omega
  · rw [fixedMap, if_neg fun h => hlow (hcond.mp h), if_neg hlow, BitVec.toNat_add, BitVec.toNat_setWidth, BitVec.toNat_ofNat]
    omega

/-! ## The numbers of the rule: `p`, `b` and the block of an offset -/

/-- `p` is 64 times bits 11:0 of the PAR (20 R71). -/
theorem toNat_parBase (par : Word) : (parBase par).toNat = 64 * (par.extractLsb' 0 12).toNat := by
  have hmask : (par &&& parMask).toNat = par.toNat % 2 ^ 12 := by
    rw [BitVec.toNat_and, show parMask.toNat = 2 ^ 12 - 1 by decide, Nat.and_two_pow_sub_one_eq_mod]
  rw [parBase, BitVec.toNat_shiftLeft, BitVec.toNat_setWidth, hmask, BitVec.extractLsb'_toNat, Nat.shiftLeft_eq, Nat.shiftRight_zero]
  omega

/-- `b` is 64 times S (20 R72, R73). -/
theorem toNat_pdrBound (pdr : Word) : (pdrBound pdr).toNat = 64 * (pdrS pdr).toNat := by
  have hS := (pdrS pdr).isLt
  rw [pdrBound, BitVec.toNat_shiftLeft, BitVec.toNat_setWidth, Nat.shiftLeft_eq]
  omega

theorem toNat_offsetOf (va : Word) : (offsetOf va).toNat = va.toNat % 8192 := by
  rw [offsetOf, BitVec.extractLsb'_toNat, Nat.shiftRight_zero]

theorem toNat_blockOf (off : BitVec 13) : (off.extractLsb' 6 7).toNat = off.toNat / 64 := by
  have hoff := off.isLt
  rw [BitVec.extractLsb'_toNat, Nat.shiftRight_eq_div_pow]
  omega

/-- The valid part of a page when MMU_BOUNDS compares the offset with `b` (20 R73). -/
theorem offsetValid_sourceLiteral (pdr : Word) (off : BitVec 13) :
    offsetValid .sourceLiteral pdr off = true ↔
      if pdrU pdr = true then 64 * (pdrS pdr).toNat ≤ off.toNat else off.toNat ≤ 64 * (pdrS pdr).toNat := by
  rw [← toNat_pdrBound, offsetValid]
  split <;> simp [BitVec.le_def]

/-- The valid part of a page when MMU_BOUNDS compares blocks of 64 bytes (20 R73). -/
theorem offsetValid_blockGranular (pdr : Word) (off : BitVec 13) :
    offsetValid .blockGranular pdr off = true ↔
      if pdrU pdr = true then (pdrS pdr).toNat ≤ off.toNat / 64 else off.toNat / 64 ≤ (pdrS pdr).toNat := by
  rw [← toNat_blockOf, offsetValid]
  split <;> simp [BitVec.le_def]

/-- The address of a valid offset: `p + off - b` in an upper part read literally, else `p + off`, modulo 2^18 (20 R74). -/
theorem toNat_mmuMap {bounds : MmuBounds} {par pdr : Word} {off : BitVec 13} (hvalid : offsetValid bounds pdr off = true) :
    (mmuMap bounds par pdr off).toNat =
      (if bounds = .sourceLiteral ∧ pdrU pdr = true then
        64 * (par.extractLsb' 0 12).toNat + (off.toNat - 64 * (pdrS pdr).toNat)
      else 64 * (par.extractLsb' 0 12).toNat + off.toNat) % 2 ^ 18 := by
  have hoff := off.isLt
  by_cases hupper : bounds = .sourceLiteral ∧ pdrU pdr = true
  · obtain ⟨rfl, hU⟩ := hupper
    have hb : pdrBound pdr ≤ off := by
      rwa [offsetValid_sourceLiteral, if_pos hU, ← toNat_pdrBound] at hvalid
    rw [if_pos ⟨rfl, hU⟩, mmuMap, if_pos hU, BitVec.toNat_add, BitVec.toNat_setWidth, BitVec.toNat_sub_of_le hb, toNat_parBase,
      toNat_pdrBound]
    omega
  · have hsum : mmuMap bounds par pdr off = parBase par + off.setWidth 18 := by
      cases bounds with
      | sourceLiteral => exact if_neg fun hU => hupper ⟨rfl, hU⟩
      | blockGranular => rfl
    rw [if_neg hupper, hsum, BitVec.toNat_add, BitVec.toNat_setWidth, toNat_parBase]
    omega

/-! ## Reasons of a fault (20 R74, R75, R78) -/

section
variable (bounds : MmuBounds) (pdr : Word) (off : BitVec 13) (kind : Access)

theorem getLsbD_mmuReasons (i : Nat) :
    (mmuReasons bounds pdr off kind).getLsbD i =
      (((kind == .write && !pdrW pdr) && (0b100#3).getLsbD i) || (!offsetValid bounds pdr off && (0b010#3).getLsbD i) ||
        (!pdrR pdr && (0b001#3).getLsbD i)) := by
  rw [mmuReasons, BitVec.getLsbD_or, BitVec.getLsbD_or]
  congr 2
  · split <;> simp_all
  · split <;> simp_all
  · split <;> simp_all

/-- The three reasons, one bit each: R off, offset not valid, write without W (20 R78). -/
theorem mmuReasons_bits :
    (mmuReasons bounds pdr off kind).getLsbD 0 = !pdrR pdr ∧
      (mmuReasons bounds pdr off kind).getLsbD 1 = !offsetValid bounds pdr off ∧
      (mmuReasons bounds pdr off kind).getLsbD 2 = (kind == .write && !pdrW pdr) := by
  rw [getLsbD_mmuReasons, getLsbD_mmuReasons, getLsbD_mmuReasons]
  simp

/-- An access is allowed where R is on, the offset is valid and W is on for a write (20 R74, R75). -/
theorem mmuReasons_eq_zero_iff :
    mmuReasons bounds pdr off kind = 0 ↔
      pdrR pdr = true ∧ offsetValid bounds pdr off = true ∧ (kind = .write → pdrW pdr = true) := by
  have hbits : ∀ x : BitVec 3, x = 0 ↔ x.getLsbD 0 = false ∧ x.getLsbD 1 = false ∧ x.getLsbD 2 = false := by decide
  obtain ⟨hread, hoffset, hwrite⟩ := mmuReasons_bits bounds pdr off kind
  rw [hbits, hread, hoffset, hwrite]
  simp

end

/-! ## MMR0 after a fault (20 R78, R83) -/

section
variable (m : Word) (mode : Mode) (page reasons : BitVec 3)

theorem mmr0OfFault_page : (mmr0OfFault m mode page reasons).extractLsb' 1 3 = page := by
  apply BitVec.eq_of_getLsbD_eq
  intro i hi
  simp only [mmr0OfFault, BitVec.getLsbD_extractLsb', BitVec.getLsbD_or, BitVec.getLsbD_and, BitVec.getLsbD_shiftLeft,
    BitVec.getLsbD_setWidth]
  interval_cases i <;> simp

theorem mmr0OfFault_mode : (mmr0OfFault m mode page reasons).extractLsb' 5 2 = modeBits mode := by
  apply BitVec.eq_of_getLsbD_eq
  intro i hi
  simp only [mmr0OfFault, BitVec.getLsbD_extractLsb', BitVec.getLsbD_or, BitVec.getLsbD_and, BitVec.getLsbD_shiftLeft,
    BitVec.getLsbD_setWidth]
  interval_cases i <;> simp

/-- The reasons are added to those that were set. -/
theorem mmr0OfFault_reason {i : Nat} (hi : i < 3) :
    (mmr0OfFault m mode page reasons).getLsbD (10 + i) = (m.getLsbD (10 + i) || reasons.getLsbD i) := by
  simp only [mmr0OfFault, BitVec.getLsbD_or, BitVec.getLsbD_and, BitVec.getLsbD_shiftLeft, BitVec.getLsbD_setWidth]
  interval_cases i <;> simp

end

end Sys2Proof.Machine
end

section
/-! The statements about memory and its mapping that are settled (20_memory.md). -/

namespace Sys2Proof.Proofs

open Sys2Proof.Machine

/-- Settles O18: the checks in their order, then the four things that can answer. -/
theorem readOutcomes : Obligations.ReadOutcomes := by
  intro mode va s
  refine ⟨memReadWordIn_odd, fun hon hreasons => ⟨(s.withMmuFault mode va .read).mmr0, ?fault⟩, fun hallowed => ?_⟩
  case fault => exact ⟨fun heven => memReadWordIn_mmuFault heven ⟨hon, hreasons⟩, memReadByteIn_mmuFault ⟨hon, hreasons⟩⟩
  intro pa
  have hword := fun heven => memReadWordIn_of_allowed heven hallowed
  have hbyte : memReadByteIn mode va s = physReadByte pa s := memReadByteIn_of_allowed hallowed
  rw [hbyte]
  refine ⟨fun htop => ⟨fun heven => ?memory, physReadByte_memory htop⟩, fun htop r hr => ?register,
    fun htop hr hdev => ⟨fun heven => ⟨Config.freeWord s.draws, ?device⟩, _, physReadByte_device htop hr hdev⟩,
    fun htop hr hdev => ⟨fun heven => ?nothing, physReadByte_nothing htop hr hdev⟩⟩
  case memory =>
    exact ⟨_, lowByte_wordOf _ _, highByte_wordOf _ _, (hword heven).trans (physReadWord_memory htop)⟩
  case register =>
    have hstate : s.afterIoRead r = if r = .switches then s.operatorMoves else s := afterIoRead_eq_ite s r
    refine ⟨fun heven => ?_, ?_⟩
    · rw [hword heven, physReadWord_ioReg htop hr, hstate]
      rfl
    · rw [physReadByte_ioReg htop hr, hstate, byteOf_physAddr]
      rfl
  case device => exact (hword heven).trans (physReadWord_device htop hr hdev)
  case nothing => exact (hword heven).trans (physReadWord_nothing htop hr hdev)

/-- Settles O19: the three checks a write can fail. -/
theorem writeStops : Obligations.WriteStops := by
  intro mode va v b s
  refine ⟨memWriteWordIn_odd v, fun hon hreasons => ⟨(s.withMmuFault mode va .write).mmr0, ?fault⟩, fun hallowed htop hr hdev => ?_⟩
  case fault => exact ⟨fun heven => memWriteWordIn_mmuFault v heven ⟨hon, hreasons⟩, memWriteByteIn_mmuFault b ⟨hon, hreasons⟩⟩
  refine ⟨fun heven => ?_, ?_⟩
  · rw [memWriteWordIn_of_allowed v heven hallowed, physWriteWord_nothing v htop hr hdev, finishWrite]
  · rw [memWriteByteIn_of_allowed b hallowed, physWriteByte_nothing b htop hr hdev, finishWrite]

/-- Settles O20: the bytes by the rules of `putWord` and `putByte`, the rest by the frame of a store into memory. -/
theorem writeStores : Obligations.WriteStores := by
  intro mode va v b s hplatform hallowed htop pa
  have hhit := hitsPsw_of_memory hplatform htop
  refine ⟨fun heven => ?word, ?byte⟩
  case word =>
    have hwrite := memWriteWordIn_memory v heven hallowed htop
    rw [hhit] at hwrite
    refine ⟨_, hwrite, ?_, ?_, fun a hlow hhigh => ?_, memoryStore_frame rfl⟩
    · rw [afterWrite_byteAt, byteAt_putWord_low, lowByte]
    · rw [afterWrite_byteAt, byteAt_putWord_high, highByte]
    · rw [afterWrite_byteAt, byteAt_putWord_of_ne _ _ hlow hhigh]
  case byte =>
    have hwrite := memWriteByteIn_memory b hallowed htop
    rw [hhit] at hwrite
    refine ⟨_, hwrite, ?_, fun a hother => ?_, memoryStore_frame rfl⟩
    · rw [afterWrite_byteAt, byteAt_putByte_same]
    · rw [afterWrite_byteAt, byteAt_putByte_of_ne _ _ hother]

/-- Settles O21: the write moves neither the mapping nor the permissions, so the read goes to the bytes it stored. -/
theorem readAfterWrite : Obligations.ReadAfterWrite := by
  intro mode va v s t hit hwrite htop hread
  obtain ⟨heven, hallowed⟩ := memWriteWordIn_ok_allowed hwrite
  rw [memWriteWordIn_memory v heven hallowed htop] at hwrite
  cases hwrite
  set u := s.putWord (s.physAddr mode va).toNat v
  set t := u.afterWrite (mmuEnabled s.mmr0) mode va with ht
  have hpa : t.physAddr mode va = s.physAddr mode va := afterWrite_physAddr ..
  have hreadable : mmuEnabled t.mmr0 = true → t.accessReasons mode va .read = 0 := by
    rw [ht, afterWrite_mmr0, afterWrite_accessReasons]
    exact hread
  have hbelow : (t.physAddr mode va).toNat < t.cfg.memTop := by
    rw [hpa, ht, afterWrite_cfg]
    exact htop
  refine ⟨?_, ?_, ?_⟩
  · rw [memReadWordIn_of_allowed heven hreadable, physReadWord_memory hbelow, hpa, ht, afterWrite_wordAt, wordAt_putWord_same]
  · rw [memReadByteIn_of_allowed hreadable, physReadByte_memory hbelow, hpa, ht, afterWrite_byteAt, byteAt_putWord_low, lowByte]
  · rw [ht, afterWrite_byteAt, byteAt_putWord_high, highByte]

/-- Settles O22. -/
theorem fixedMapping : Obligations.FixedMapping := by
  intro mode va kind s hoff
  have hon : ¬ mmuEnabled s.mmr0 = true := Bool.eq_false_iff.mp hoff
  have haddr : s.physAddr mode va = fixedMap va := if_neg hon
  exact ⟨fixedMap va, haddr ▸ translate_of_allowed fun h => absurd h hon, toNat_fixedMap va⟩

/-- Settles O23: the access is allowed exactly where there is no reason against it; then the address, in numbers. -/
theorem mmuTranslation : Obligations.MmuTranslation := by
  intro mode va kind s hon pdr off b p upper valid allowed
  have hvalid : offsetValid s.cfg.mmuBounds pdr (offsetOf va) = true ↔ valid := by
    simp only [valid]
    cases s.cfg.mmuBounds with
    | sourceLiteral => rw [offsetValid_sourceLiteral, toNat_offsetOf]; rfl
    | blockGranular =>
      rw [offsetValid_blockGranular, toNat_offsetOf, ← Nat.mul_div_cancel_left (pdrS pdr).toNat (show 0 < 64 by decide)]
      rfl
  have hallowed : s.accessReasons mode va kind = 0 ↔ allowed :=
    (mmuReasons_eq_zero_iff ..).trans (and_congr_right fun _ => and_congr_left fun _ => hvalid)
  refine ⟨fun h => ⟨s.physAddr mode va, translate_of_allowed fun _ => hallowed.mpr h, ?_⟩,
    fun h => ⟨_, translate_of_fault ⟨hon, fun hzero => h (hallowed.mp hzero)⟩⟩⟩
  obtain ⟨-, hpart, -⟩ := h
  rw [State.physAddr, if_pos hon]
  refine (toNat_mmuMap (hvalid.mpr hpart)).trans ?_
  rw [toNat_offsetOf]
  rfl

/-- Settles O24: a failing translation is the recorded fault, whose fields are read off. -/
theorem mmuFaultRecords : Obligations.MmuFaultRecords := by
  intro mode va kind s s1 e hfails
  by_cases hfault : mmuEnabled s.mmr0 = true ∧ s.accessReasons mode va kind ≠ 0
  case neg =>
    rw [translate_of_allowed fun hon => by_contra fun hreasons => hfault ⟨hon, hreasons⟩] at hfails
    cases hfails
  case pos =>
    rw [translate_of_fault hfault] at hfails
    cases hfails
    obtain ⟨hread, hoffset, hwrite⟩ := mmuReasons_bits s.cfg.mmuBounds (s.pdr mode (pageOf va)) (offsetOf va) kind
    have hreason := fun i (hi : i < 3) => mmr0OfFault_reason s.mmr0 mode (pageOf va) (s.accessReasons mode va kind) hi
    refine ⟨rfl, rfl, mmr0OfFault_page .., ?_, (mmuEnabled_mmr0OfFault ..).trans hfault.1, ?_, ?_, ?_⟩
    · refine (mmr0OfFault_mode ..).trans ?_
      cases mode <;> rfl
    · exact (hreason 0 (by decide)).trans (congrArg _ hread)
    · exact (hreason 2 (by decide)).trans (congrArg _ hwrite)
    · exact (hreason 1 (by decide)).trans (congrArg _ hoffset)

/-- Settles O25: every page of the four sets, then the single registers and the addresses of none. -/
theorem ioAddresses : Obligations.IoAddresses := by
  unfold Obligations.IoAddresses
  exact ⟨by decide, by decide, by decide⟩

end Sys2Proof.Proofs
end

section
/-! SUPPORT. The opcode table as a code: its rows fill in their fields and drop no bit, share no word but for mode 0 of `jmp` and
`jsr`, and leave no word out (30 R120, R121, R124). -/

namespace Sys2Proof

/-! ## Fields of a word and fields of an encoding -/

@[simp] theorem regAt_bits (w : Word) (lo : Nat) : (regAt w lo).bits = w.extractLsb' lo 3 := Reg.bits_ofBits _

@[simp] theorem operandAt_bits (w : Word) (lo : Nat) : (operandAt w lo).bits = w.extractLsb' lo 6 := Operand.bits_ofBits _

/-- A field that was taken out of a word, put back at its place. -/
theorem field_extract (w : Word) (lo n : Nat) :
    field (w.extractLsb' lo n) lo = w &&& BitVec.ofNat 16 ((2 ^ n - 1) <<< lo) := by
  apply BitVec.eq_of_getLsbD_eq
  intro i hi
  rw [BitVec.getLsbD_and, getLsbD_field, BitVec.getLsbD_extractLsb', BitVec.getLsbD_ofNat, Nat.testBit_shiftLeft,
    Nat.testBit_two_pow_sub_one]
  by_cases hlo : lo ≤ i
  · simp [hi, hlo, Bool.and_comm]
  · simp [hlo]

/-! ## No row drops a bit -/

/-- The encoding of what the row builds from a word that it reads is that word. -/
def OpRow.Faithful (row : OpRow) : Prop := ∀ w, row.reads w = true → encode (row.build w) = w

/-- It is enough that the encoding is the row's pattern with the word's own bits outside the mask. -/
theorem OpRow.faithful_of_encode {row : OpRow} (h : ∀ w, encode (row.build w) = row.pattern ||| (w &&& ~~~row.mask)) :
    row.Faithful := by
  intro w hw
  rw [h, ← beq_iff_eq.mp hw, ← BitVec.and_or_distrib_left, BitVec.or_not_self, BitVec.and_allOnes]

/-- Every row of the table encodes to its pattern, with its fields where the mask has no bits. -/
theorem encode_build : ∀ row ∈ opRows, ∀ w, encode (row.build w) = row.pattern ||| (w &&& ~~~row.mask) := by
  simp only [opRows, opRowsSpecial, opRowsBranchLow, opRowsSingle, opRowsDouble, opRowsBranchHigh, opRowsByte, List.cons_append,
    List.nil_append, List.forall_mem_cons]
  simp [encode, field_extract, BitVec.or_assoc, ← BitVec.and_or_distrib_left]

theorem opRows_faithful {row : OpRow} (h : row ∈ opRows) : row.Faithful := OpRow.faithful_of_encode (encode_build row h)

/-! ## Two rows read no common word -/

/-- The two rows ask for different bits somewhere. -/
def OpRow.apart (a b : OpRow) : Bool := a.pattern &&& b.mask != b.pattern &&& a.mask

/-- Rows that ask for different bits read no common word. -/
theorem OpRow.reads_of_apart {a b : OpRow} {w : Word} (h : a.apart b = true) (ha : a.reads w = true) : b.reads w = false := by
  refine Bool.eq_false_iff.mpr fun hb => bne_iff_ne.mp h ?_
  rw [← beq_iff_eq.mp ha, ← beq_iff_eq.mp hb, BitVec.and_assoc, BitVec.and_assoc, BitVec.and_comm a.mask]

/-- Of two rows of the table only mode 0 of `jmp` (11, 12) and of `jsr` (27, 28) can read a common word. -/
theorem opRows_apart : opRows.zipIdx.Pairwise fun a b =>
    a.1.apart b.1 = true ∨ (a.2, b.2) = (11, 12) ∨ (a.2, b.2) = (27, 28) := by decide

theorem illFormed_jmp_of_jmpMode0 (r : Reg) : (Instr.jmp (operandAt (encode (.jmpMode0 r)) 0)).wellFormed = false := by
  cases r <;> rfl

theorem illFormed_jsr_of_jsrMode0 (q r d : Reg) : (Instr.jsr q (operandAt (encode (.jsrMode0 r d)) 0)).wellFormed = false := by
  cases r <;> cases d <;> rfl

/-- Where a row reads a word that an earlier one reads, it builds `jmp` or `jsr` with mode 0, which is no instruction (30 R124). -/
theorem illFormed_of_read_twice {w : Word} {j k : Nat} {a b : OpRow} (hjk : j < k) (ha : opRows[j]? = some a)
    (hb : opRows[k]? = some b) (hwa : a.reads w = true) (hwb : b.reads w = true) : (b.build w).wellFormed = false := by
  have haw : encode (a.build w) = w := opRows_faithful (List.mem_of_getElem? ha) w hwa
  obtain ⟨hj, haj⟩ := List.getElem?_eq_some_iff.mp ha
  obtain ⟨hk, hbk⟩ := List.getElem?_eq_some_iff.mp hb
  have hpair := List.pairwise_iff_getElem.mp opRows_apart j k (by simpa using hj) (by simpa using hk) hjk
  simp only [List.getElem_zipIdx, haj, hbk, Nat.zero_add, Prod.mk.injEq] at hpair
  rcases hpair with hapart | ⟨rfl, rfl⟩ | ⟨rfl, rfl⟩
  · rw [OpRow.reads_of_apart hapart hwa] at hwb
    cases hwb
  · cases ha
    cases hb
    rw [← haw]
    exact illFormed_jmp_of_jmpMode0 _
  · cases ha
    cases hb
    rw [← haw]
    exact illFormed_jsr_of_jsrMode0 _ _ _

/-! ## No word is left out -/

/-- The row takes the bit `b` at the place `i`. -/
def OpRow.takesBit (row : OpRow) (i : Nat) (b : Bool) : Bool := (b && row.mask.getLsbD i) == row.pattern.getLsbD i

/-- The row takes whatever stands in the lowest `n` bits. -/
def OpRow.takesLow (row : OpRow) (n : Nat) : Bool := (List.range n).all fun i => row.takesBit i false && row.takesBit i true

theorem OpRow.reads_of_takesBit {row : OpRow} {w : Word} (h : ∀ i < 16, row.takesBit i (w.getLsbD i) = true) :
    row.reads w = true := by
  refine beq_iff_eq.mpr (BitVec.eq_of_getLsbD_eq fun i hi => ?_)
  rw [BitVec.getLsbD_and]
  exact beq_iff_eq.mp (h i hi)

theorem OpRow.takesBit_of_takesLow {row : OpRow} {n i : Nat} (h : row.takesLow n = true) (hi : i < n) (b : Bool) :
    row.takesBit i b = true := by
  have hboth := List.all_eq_true.mp h i (List.mem_range.mpr hi)
  rw [Bool.and_eq_true] at hboth
  cases b
  · exact hboth.1
  · exact hboth.2

/-- The rows leave out no filling of the lowest `n` bits: one of them takes all of them, or they split at the highest of these bits. -/
def rowsCover : Nat → List OpRow → Bool
  | 0, rows => !rows.isEmpty
  | n + 1, rows => rows.any (·.takesLow (n + 1)) ||
      (rowsCover n (rows.filter (·.takesBit n false)) && rowsCover n (rows.filter (·.takesBit n true)))

/-- Rows that take the bits of a word from `n` on, and leave out no filling of the bits below: one of them reads the word. -/
theorem exists_reads_of_rowsCover {w : Word} {n : Nat} {rows : List OpRow} (hcover : rowsCover n rows = true)
    (hhigh : ∀ row ∈ rows, ∀ i < 16, n ≤ i → row.takesBit i (w.getLsbD i) = true) : ∃ row ∈ rows, row.reads w = true := by
  induction n generalizing rows with
  | zero =>
    obtain ⟨row, hrow⟩ := List.exists_mem_of_ne_nil rows (by simpa [rowsCover] using hcover)
    exact ⟨row, hrow, OpRow.reads_of_takesBit fun i hi => hhigh row hrow i hi (Nat.zero_le i)⟩
  | succ n ih =>
    rw [rowsCover, Bool.or_eq_true, Bool.and_eq_true] at hcover
    rcases hcover with hany | ⟨hfalse, htrue⟩
    · obtain ⟨row, hrow, hlow⟩ := List.any_eq_true.mp hany
      refine ⟨row, hrow, OpRow.reads_of_takesBit fun i hi => ?_⟩
      by_cases hin : i < n + 1
      · exact OpRow.takesBit_of_takesLow hlow hin _
      · exact hhigh row hrow i hi (Nat.le_of_not_lt hin)
    · have hsplit : rowsCover n (rows.filter (·.takesBit n (w.getLsbD n))) = true := by
        cases w.getLsbD n
        · exact hfalse
        · exact htrue
      obtain ⟨row, hrow, hreads⟩ := ih hsplit fun row hrow i hi hni => by
        obtain ⟨hmem, hbit⟩ := List.mem_filter.mp hrow
        rcases Nat.eq_or_lt_of_le hni with rfl | hlt
        · exact hbit
        · exact hhigh row hmem i hi hlt
      exact ⟨row, List.mem_of_mem_filter hrow, hreads⟩

/-- The table leaves out none of the 65536 words (30 R120). -/
theorem exists_row_reads (w : Word) : ∃ row ∈ opRows, row.reads w = true :=
  exists_reads_of_rowsCover (n := 16) rfl fun _ _ _ hi hle => absurd hi (Nat.not_lt.mpr hle)

/-! ## Every encoding is that of a well-formed instruction -/

/-- An instruction that is not well formed has the code of its mode-0 row (30 R124). -/
theorem exists_wellFormed_encode_eq (i : Instr) : ∃ j : Instr, j.wellFormed = true ∧ encode j = encode i := by
  by_cases hi : i.wellFormed = true
  · exact ⟨i, hi, rfl⟩
  · cases i with
    | jmp dd =>
      obtain ⟨mode, r⟩ := dd
      obtain rfl : mode = .register := by simpa [Instr.wellFormed] using hi
      exact ⟨.jmpMode0 r, rfl, by cases r <;> rfl⟩
    | jsr q dd =>
      obtain ⟨mode, r⟩ := dd
      obtain rfl : mode = .register := by simpa [Instr.wellFormed] using hi
      exact ⟨.jsrMode0 q r, rfl, by cases q <;> cases r <;> rfl⟩
    | _ => exact absurd rfl hi

/-! ## Decoding -/

namespace Laws

/-- Every instruction has its row in the table (30 R121). -/
theorem rowMatch : ∀ i : Instr, RowMatch.Statement i
  | .halt => RowMatch.halt
  | .wait => RowMatch.wait
  | .rti => RowMatch.rti
  | .bpt => RowMatch.bpt
  | .iot => RowMatch.iot
  | .reset => RowMatch.reset
  | .rtt => RowMatch.rtt
  | .illegalMfpt => RowMatch.illegalMfpt
  | .illegal000010 x => RowMatch.illegal000010 x
  | .illegal000020 x => RowMatch.illegal000020 x
  | .illegal000040 x => RowMatch.illegal000040 x
  | .jmpMode0 r => RowMatch.jmpMode0 r
  | .jmp dd => RowMatch.jmp dd
  | .rts r => RowMatch.rts r
  | .illegal000210 x => RowMatch.illegal000210 x
  | .illegal000220 x => RowMatch.illegal000220 x
  | .illegalSpl x => RowMatch.illegalSpl x
  | .clcc m => RowMatch.clcc m
  | .secc m => RowMatch.secc m
  | .swab dd => RowMatch.swab dd
  | .br nn => RowMatch.br nn
  | .bne nn => RowMatch.bne nn
  | .beq nn => RowMatch.beq nn
  | .bge nn => RowMatch.bge nn
  | .blt nn => RowMatch.blt nn
  | .bgt nn => RowMatch.bgt nn
  | .ble nn => RowMatch.ble nn
  | .jsrMode0 r d => RowMatch.jsrMode0 r d
  | .jsr r dd => RowMatch.jsr r dd
  | .clr dd => RowMatch.clr dd
  | .com dd => RowMatch.com dd
  | .inc dd => RowMatch.inc dd
  | .dec dd => RowMatch.dec dd
  | .neg dd => RowMatch.neg dd
  | .adc dd => RowMatch.adc dd
  | .sbc dd => RowMatch.sbc dd
  | .tst dd => RowMatch.tst dd
  | .ror dd => RowMatch.ror dd
  | .rol dd => RowMatch.rol dd
  | .asr dd => RowMatch.asr dd
  | .asl dd => RowMatch.asl dd
  | .mark nn => RowMatch.mark nn
  | .mfpi ss => RowMatch.mfpi ss
  | .mtpi dd => RowMatch.mtpi dd
  | .sxt dd => RowMatch.sxt dd
  | .illegalCsm x => RowMatch.illegalCsm x
  | .illegal007100 x => RowMatch.illegal007100 x
  | .illegalTstset x => RowMatch.illegalTstset x
  | .illegalWrtlck x => RowMatch.illegalWrtlck x
  | .illegal007400 x => RowMatch.illegal007400 x
  | .mov ss dd => RowMatch.mov ss dd
  | .cmp ss dd => RowMatch.cmp ss dd
  | .bit ss dd => RowMatch.bit ss dd
  | .bic ss dd => RowMatch.bic ss dd
  | .bis ss dd => RowMatch.bis ss dd
  | .add ss dd => RowMatch.add ss dd
  | .mul r ss => RowMatch.mul r ss
  | .div r ss => RowMatch.div r ss
  | .ash r ss => RowMatch.ash r ss
  | .ashc r ss => RowMatch.ashc r ss
  | .xor r dd => RowMatch.xor r dd
  | .illegalFis x => RowMatch.illegalFis x
  | .illegalCis x => RowMatch.illegalCis x
  | .sob r nn => RowMatch.sob r nn
  | .bpl nn => RowMatch.bpl nn
  | .bmi nn => RowMatch.bmi nn
  | .bhi nn => RowMatch.bhi nn
  | .blos nn => RowMatch.blos nn
  | .bvc nn => RowMatch.bvc nn
  | .bvs nn => RowMatch.bvs nn
  | .bcc nn => RowMatch.bcc nn
  | .bcs nn => RowMatch.bcs nn
  | .emt nn => RowMatch.emt nn
  | .sys nn => RowMatch.sys nn
  | .clrb dd => RowMatch.clrb dd
  | .comb dd => RowMatch.comb dd
  | .incb dd => RowMatch.incb dd
  | .decb dd => RowMatch.decb dd
  | .negb dd => RowMatch.negb dd
  | .adcb dd => RowMatch.adcb dd
  | .sbcb dd => RowMatch.sbcb dd
  | .tstb dd => RowMatch.tstb dd
  | .rorb dd => RowMatch.rorb dd
  | .rolb dd => RowMatch.rolb dd
  | .asrb dd => RowMatch.asrb dd
  | .aslb dd => RowMatch.aslb dd
  | .illegalMtps x => RowMatch.illegalMtps x
  | .illegalMfpd x => RowMatch.illegalMfpd x
  | .illegalMtpd x => RowMatch.illegalMtpd x
  | .illegalMfps x => RowMatch.illegalMfps x
  | .illegal107000 x => RowMatch.illegal107000 x
  | .movb ss dd => RowMatch.movb ss dd
  | .cmpb ss dd => RowMatch.cmpb ss dd
  | .bitb ss dd => RowMatch.bitb ss dd
  | .bicb ss dd => RowMatch.bicb ss dd
  | .bisb ss dd => RowMatch.bisb ss dd
  | .sub ss dd => RowMatch.sub ss dd
  | .illegalFp11 x => RowMatch.illegalFp11 x

end Laws

/-- The row of a well-formed instruction is the first one that reads its encoding (30 R121). -/
theorem decodeWord_encode {i : Instr} (hi : i.wellFormed = true) : decodeWord (encode i) = some i := by
  obtain ⟨k, row, hk, hreads, hbuild⟩ := Laws.rowMatch i
  have hfirst : ∀ j row', j < k → opRows[j]? = some row' → row'.reads (encode i) = false := by
    intro j row' hj hrow'
    refine Bool.eq_false_iff.mpr fun hreads' => ?_
    have hill := illFormed_of_read_twice hj hrow' hk hreads' hreads
    rw [hbuild, hi] at hill
    cases hill
  rw [decodeWord_of_first _ k row hk hreads hfirst, hbuild]

/-- The bytes of an instruction word decode as the word, and those that follow are left (20 R54, 30 R100). -/
theorem decodeBytes_encodeBytes {i : Instr} (hi : decodeWord (encode i) = some i) (rest : List Byte) :
    decodeBytes (encodeBytes i ++ rest) = .ok (i, rest) := by
  simp only [encodeBytes, List.cons_append, List.nil_append, decodeBytes, wordOf_bytes, hi]

end Sys2Proof
end

section
/-! The statements about the encoding that are settled (30_encoding.md). -/

namespace Sys2Proof.Proofs

/-- Settles O1: no row reads the encoding of a well-formed instruction before its own. -/
theorem decodeOfEncode : Obligations.DecodeOfEncode := by
  intro i hi
  have hword := decodeWord_encode hi
  exact ⟨hword, decodeBytes_encodeBytes hword⟩

/-- Settles O2: some row reads the word and drops no bit of it; the code it stands for has a well-formed instruction, which decodes
back. -/
theorem everyWordIsOneInstruction : Obligations.EveryWordIsOneInstruction := by
  intro w
  obtain ⟨row, hrow, hreads⟩ := exists_row_reads w
  obtain ⟨i, hi, hcode⟩ := exists_wellFormed_encode_eq (row.build w)
  have hword : encode i = w := hcode.trans (opRows_faithful hrow w hreads)
  exact ⟨i, hword ▸ decodeWord_encode hi, hi, hword⟩

/-- Settles O3, word by word. -/
theorem sampleWordsDecode : Obligations.SampleWordsDecode := by
  unfold Obligations.SampleWordsDecode
  and_intros <;> decide

end Sys2Proof.Proofs
end


section
/-! SUPPORT. What evaluating and loading operands leaves as it was (30 R111, R112). -/

namespace Sys2Proof.Machine

/-! ## Register cells -/

/-- A register write reaches the cell its number means in the current mode, and no other (10 R21 to R23). -/
theorem setReg_cell_of_ne {s : State} {r : Reg} {c : RegCell} (v : Word) (h : cellOf s.mode r ≠ some c) :
    (s.setReg r v).cell c = s.cell c := by
  by_cases hr : r = .sp
  · subst hr
    rw [setReg_sp]
    cases hm : s.mode <;> rw [hm] at h <;> cases c <;> first | rfl | exact absurd rfl h
  · cases r <;> cases c <;> first | rfl | exact absurd rfl h | exact absurd rfl hr

theorem mode_eq_of_psw_eq {s t : State} (h : t.psw = s.psw) : t.mode = s.mode := by rw [State.mode, State.mode, h]

/-! ## What pieces of instructions that store nothing leave -/

/-- `t` comes from `s` by reads and by changes of the named register cells and the PC alone. -/
structure ReadsOnly (s : State) (changed : List (Option RegCell)) (t : State) : Prop where
  cells : cellsKept s t changed
  psw : t.psw = s.psw
  memory : memoryKept s t
  others : othersKept s t
  trapTaken : t.trapTaken = s.trapTaken

theorem readsOnly_refl (s : State) : ReadsOnly s [] s where
  cells := fun _ _ => rfl
  psw := rfl
  memory := fun _ => rfl
  others := ⟨switchesFollow_refl s, rfl, rfl, rfl, rfl, rfl, rfl, rfl, rfl, rfl, rfl, rfl, rfl, rfl⟩
  trapTaken := rfl

section
variable {s t u : State} {changed : List (Option RegCell)}

theorem ReadsOnly.mode (h : ReadsOnly s changed t) : t.mode = s.mode := mode_eq_of_psw_eq h.psw

theorem ReadsOnly.append (h : ReadsOnly s changed t) (more : List (Option RegCell)) : ReadsOnly s (changed ++ more) t :=
  { h with cells := fun c hc => h.cells c fun hmem => hc (List.mem_append_left _ hmem) }

/-- Free values drawn and settings passed are no change (logs 2, 3). -/
theorem ReadsOnly.drawn (h : ReadsOnly s changed t) (n : Reads) : ReadsOnly s changed (t.drawn n) :=
  { h with
    cells := fun c hc => Eq.trans (by cases c <;> rfl) (h.cells c hc)
    others := ⟨switchesFollow_drawn h.others.1 n, h.others.2⟩ }

theorem ReadsOnly.setReg (h : ReadsOnly s changed t) {r : Reg} (v : Word) (hr : r = .pc ∨ cellOf s.mode r ∈ changed) :
    ReadsOnly s changed (t.setReg r v) where
  cells := fun c hc => by
    rw [setReg_cell_of_ne v, h.cells c hc]
    rw [h.mode]
    rcases hr with rfl | hr
    · exact nofun
    · exact fun heq => hc (heq ▸ hr)
  psw := (setReg_psw t r v).trans h.psw
  memory := fun a => by rw [State.byteAt, setReg_mem]; exact h.memory a
  others := by
    have ho := h.others
    simpa only [othersKept, switchesFollow, setReg_sr, setReg_switchMoves, setReg_dr, setReg_mmr0, setReg_mmr2, setReg_kernelPar,
      setReg_kernelPdr, setReg_userPar, setReg_userPdr, setReg_pending, setReg_traceInhibit, setReg_run, setReg_yellowPending,
      setReg_ia, setReg_cfg] using ho
  trapTaken := (setReg_trapTaken t r v).trans h.trapTaken

theorem ReadsOnly.afterRead (h : ReadsOnly s changed t) {mode : Mode} {va v : Word} (hr : memReadWordIn mode va t = .ok v u) :
    ReadsOnly s changed u := by
  obtain ⟨n, rfl⟩ := memReadWordIn_ok hr
  exact h.drawn n

theorem ReadsOnly.afterFetch (h : ReadsOnly s changed t) {v : Word} (hf : fetchWord t = .ok v u) : ReadsOnly s changed u := by
  rw [fetchWord_apply] at hf
  cases hr : memReadWordIn t.mode t.pc t with
  | error e t1 => rw [hr] at hf; cases hf
  | ok w t1 =>
    rw [hr] at hf
    cases hf
    exact (h.afterRead hr).setReg _ (.inl rfl)

/-- Evaluating an operand specification changes the register its mode steps and the PC (30 R111). -/
theorem ReadsOnly.afterOperand (h : ReadsOnly s changed t) {w : Width} {o : Operand} {loc : Loc}
    (ho : operand w o t = .ok loc u) : ReadsOnly s (changed ++ [steppedCell s.mode o]) u := by
  have h := h.append [steppedCell s.mode o]
  obtain ⟨mode, r⟩ := o
  have hlast : steppedCell s.mode ⟨mode, r⟩ ∈ changed ++ [steppedCell s.mode ⟨mode, r⟩] :=
    List.mem_append_right _ (List.mem_singleton_self _)
  cases mode with
  | register | indirect => cases ho; exact h
  | autoInc | autoDec => cases ho; exact h.setReg _ (.inr hlast)
  | autoIncIndirect =>
    rw [operand_autoIncIndirect] at ho
    cases hr : memReadWordIn t.mode (t.reg r) t with
    | error e t1 => rw [hr] at ho; cases ho
    | ok ea t1 => rw [hr] at ho; cases ho; exact (h.afterRead hr).setReg _ (.inr hlast)
  | autoDecIndirect =>
    rw [operand_autoDecIndirect] at ho
    cases hr : memReadWordIn t.mode (t.reg r - 2) (t.setReg r (t.reg r - 2)) with
    | error e t1 => rw [hr] at ho; cases ho
    | ok ea t1 => rw [hr] at ho; cases ho; exact (h.setReg _ (.inr hlast)).afterRead hr
  | index =>
    rw [operand_index] at ho
    cases hf : fetchWord t with
    | error e t1 => rw [hf] at ho; cases ho
    | ok idx t1 => rw [hf] at ho; cases ho; exact h.afterFetch hf
  | indexIndirect =>
    rw [operand_indexIndirect] at ho
    cases hf : fetchWord t with
    | error e t1 => rw [hf] at ho; cases ho
    | ok idx t1 =>
      simp only [hf] at ho
      cases hr : memReadWordIn t1.mode (idx + t1.reg r) t1 with
      | error e t2 => rw [hr] at ho; cases ho
      | ok ea t2 => rw [hr] at ho; cases ho; exact (h.afterFetch hf).afterRead hr

end

/-- A load changes nothing, but may draw a free value from a device or pass a setting of the switches (30 R112, logs 2, 3). -/
theorem loadWord_ok {loc : Loc} {v : Word} {s t : State} (h : loadWord loc s = .ok v t) : ∃ n, t = s.drawn n := by
  cases loc with
  | reg r => cases h; exact ⟨⟨0, 0⟩, (drawn_none s).symm⟩
  | mem ea pushed => exact memReadWordIn_ok h

theorem loadByte_ok {loc : Loc} {v : Byte} {s t : State} (h : loadByte loc s = .ok v t) : ∃ n, t = s.drawn n := by
  cases loc with
  | reg r => cases h; exact ⟨⟨0, 0⟩, (drawn_none s).symm⟩
  | mem ea pushed => exact memReadByteIn_ok h

/-- Reads alone leave every register cell, the PC, the PSW and memory as they were, and of the rest but the switches (logs 2, 3). -/
theorem drawn_frame (s : State) (n : Reads) : cellsKept s (s.drawn n) [] ∧ (s.drawn n).pc = s.pc ∧ (s.drawn n).psw = s.psw ∧
    memoryKept s (s.drawn n) ∧ othersKept s (s.drawn n) := by
  have h := (readsOnly_refl s).drawn n
  exact ⟨h.cells, rfl, rfl, h.memory, h.others⟩

/-- The push check of a store to memory: only after a tagged push by a program in kernel mode, below 0400 (20 R67, 30 R113). -/
theorem afterStore_eq_ite (t : State) (pushed : Bool) (mode : Mode) (ea : Word) : t.afterStore pushed mode ea =
    if pushed = true ∧ mode = .kernel ∧ ea < 0o400 then { t with yellowPending := true } else t := by
  cases pushed <;> simp [State.afterStore, State.afterPush]

/-! ## Instructions that only trap -/

/-- An instruction that only raises an exception is the trap sequence at its vector, and nothing else (60 R241, R243). -/
theorem trapsAt_of_raise {i : Instr} {e : Exn} {s : State} (hexec : exec i s = runInstr (raise e) s) (he : e ≠ .mmuFault) :
    TrapsAt i (exnVector e) s := by
  have htrap : exec i s = markTrap (trapAt (exnVector e) s) := by
    rw [hexec, runInstr_of_raised (raise_apply e s), takeTrap, if_neg he]
  refine ⟨htrap, fun t ⟨newPc, newPs, s1, s2, hvector, hpushes, ht⟩ => ?_⟩
  rw [htrap, trapAt_of_ok hvector hpushes, ht]
  rfl

/-! ## The condition codes that a mask selects -/

/-- A bit of the mask as a bit of the word (30 R118). -/
theorem pswWithFlags_clearFlags (p : Word) (m : BitVec 4) :
    pswWithFlags p (clearFlags (pswFlags p) (maskFlags m)) = p &&& ~~~(m.setWidth 16) := by
  apply BitVec.eq_of_getLsbD_eq
  intro i hi
  rw [getLsbD_pswWithFlags, getLsbD_flagWord, BitVec.getLsbD_and, BitVec.getLsbD_not, BitVec.getLsbD_setWidth]
  interval_cases i <;> simp [clearFlags, pswFlags, maskFlags]

theorem pswWithFlags_raiseFlags (p : Word) (m : BitVec 4) :
    pswWithFlags p (raiseFlags (pswFlags p) (maskFlags m)) = p ||| m.setWidth 16 := by
  apply BitVec.eq_of_getLsbD_eq
  intro i hi
  rw [getLsbD_pswWithFlags, getLsbD_flagWord, BitVec.getLsbD_or, BitVec.getLsbD_setWidth]
  interval_cases i <;> simp [raiseFlags, pswFlags, maskFlags]

theorem exec_clcc (m : BitVec 4) (s : State) : exec (.clcc m) s = .next (s.setFlags (clearFlags s.flags (maskFlags m))) := rfl

theorem exec_secc (m : BitVec 4) (s : State) : exec (.secc m) s = .next (s.setFlags (raiseFlags s.flags (maskFlags m))) := rfl

end Sys2Proof.Machine
end

section
/-! The statements about operands, illegal codes and condition-code operations that are settled (30_encoding.md). -/

namespace Sys2Proof.Proofs

open Sys2Proof.Machine

/-- Settles O14. -/
theorem stepAmounts : Obligations.StepAmounts := fun _ => ⟨rfl, rfl⟩

/-- Settles O15: the rules of the eight modes, with the end of the one read or the two reads filled in. -/
theorem addressModes : Obligations.AddressModes := by
  intro w r s
  refine ⟨operand_register w r s, operand_indirect w r s, operand_autoInc w r s, operand_autoDec w r s, ?incRead, ?incFails,
    ?decRead, ?decFails, ?index, ?fetchFails, ?indexRead, ?indexFails⟩
  case incRead | incFails => intro x s1 hread; rw [operand_autoIncIndirect, hread]
  case decRead | decFails => intro x s1 hread; rw [operand_autoDecIndirect, hread]
  case index =>
    intro idx s1 hfetch
    rw [operand_index, fetchWord_apply, hfetch]
    rfl
  case fetchFails =>
    intro e s1 hfetch
    rw [operand_index, operand_indexIndirect, fetchWord_apply, hfetch]
    exact ⟨rfl, rfl⟩
  case indexRead | indexFails =>
    intro idx x s1 s2 hfetch hread
    have hmode : (s1.setReg .pc (s.pc + 2)).mode = s.mode := by
      obtain ⟨n, rfl⟩ := memReadWordIn_ok hfetch
      rfl
    simp only [operand_indexIndirect, fetchWord_apply, hfetch, hmode]
    rw [show s1.setReg .pc (s.pc + 2) = { s1 with pc := s.pc + 2 } from rfl, hread]

/-- Settles O16: the frame of the modes, then that of the reads a load can make. -/
theorem operandFrame : Obligations.OperandFrame := by
  intro o s s1 loc w ho
  have h := (readsOnly_refl s).afterOperand ho
  refine ⟨⟨h.cells, h.psw, h.memory, h.others, h.trapTaken⟩, fun v s2 hload => ?_, fun v s2 hload => ?_⟩
  · obtain ⟨n, rfl⟩ := loadWord_ok hload
    exact drawn_frame s1 n
  · obtain ⟨n, rfl⟩ := loadByte_ok hload
    exact drawn_frame s1 n

/-- Settles O17: registers by the rules of `Load` and `Store`; a store to memory by the end of its write. -/
theorem loadAndStore : Obligations.LoadAndStore := by
  intro s r ea v b pushed
  refine ⟨rfl, rfl, rfl, rfl, rfl, fun hdest => ?_, fun hdest => ?_, fun hit s1 hwrite => ?_, fun hit s1 hwrite => ?_,
    fun e s1 hwrite => ?_, fun e s1 hwrite => ?_⟩
  · rw [storeByte_apply, hdest]
    rfl
  · refine ⟨wordOf (highByte (s.reg r)) b, lowByte_wordOf _ _, highByte_wordOf _ _, ?_⟩
    rw [storeByte_apply, hdest]
    rfl
  · rw [storeWord_apply, storeWordIn_mem, hwrite]
    exact congrArg (EStateM.Result.ok hit) (afterStore_eq_ite ..)
  · rw [storeByte_apply, storeByteAs_mem, hwrite]
    exact congrArg (EStateM.Result.ok hit) (afterStore_eq_ite ..)
  · rw [storeWord_apply, storeWordIn_mem, hwrite]
  · rw [storeByte_apply, storeByteAs_mem, hwrite]

/-- Settles O32: each of the codes only raises the exception. -/
theorem illegalCodesTrap : Obligations.IllegalCodesTrap := by
  intro s i hi
  split at hi
  case h_23 => exact hi.elim
  all_goals exact trapsAt_of_raise (e := .illegalInstruction) rfl nofun

/-- Settles O36: the words are the encodings of the two operations. -/
theorem conditionCodeOperations : Obligations.ConditionCodeOperations := by
  intro s m
  have hclear : (0o000240 : Word) + m.setWidth 16 = encode (.clcc m) := by revert m; decide
  have hset : (0o000260 : Word) + m.setWidth 16 = encode (.secc m) := by revert m; decide
  rw [hclear, hset, ← pswWithFlags_clearFlags, ← pswWithFlags_raiseFlags]
  exact ⟨decodeWord_encode rfl, decodeWord_encode rfl, exec_clcc m s, exec_secc m s⟩

end Sys2Proof.Proofs
end


section
/-! SUPPORT. Frames: what an instruction leaves as it was when it stores nothing, or stores to one location (30 R111 to R113, 41 R150,
42 R190). -/

namespace Sys2Proof.Machine

/-! ## The marks that follow a store (20 R61, R67, R76) -/

section
variable (s : State) (on : Bool) (mode : Mode) (va : Word)

@[simp] theorem afterWrite_psw : (s.afterWrite on mode va).psw = s.psw := by cases on <;> simp [State.afterWrite]

@[simp] theorem afterWrite_sr : (s.afterWrite on mode va).sr = s.sr := by cases on <;> simp [State.afterWrite]

@[simp] theorem afterWrite_switchMoves : (s.afterWrite on mode va).switchMoves = s.switchMoves := by
  cases on <;> simp [State.afterWrite]

@[simp] theorem afterWrite_dr : (s.afterWrite on mode va).dr = s.dr := by cases on <;> simp [State.afterWrite]

@[simp] theorem afterWrite_mmr2 : (s.afterWrite on mode va).mmr2 = s.mmr2 := by cases on <;> simp [State.afterWrite]

@[simp] theorem afterWrite_pending : (s.afterWrite on mode va).pending = s.pending := by cases on <;> simp [State.afterWrite]

@[simp] theorem afterWrite_traceInhibit : (s.afterWrite on mode va).traceInhibit = s.traceInhibit := by
  cases on <;> simp [State.afterWrite]

@[simp] theorem afterWrite_run : (s.afterWrite on mode va).run = s.run := by cases on <;> simp [State.afterWrite]

@[simp] theorem afterWrite_yellowPending : (s.afterWrite on mode va).yellowPending = s.yellowPending := by
  cases on <;> simp [State.afterWrite]

@[simp] theorem afterWrite_ia : (s.afterWrite on mode va).ia = s.ia := by cases on <;> simp [State.afterWrite]

end

/-- The push check sets one flag, where the location is one of the yellow stack (20 R67). -/
theorem afterStore_eq_yellow (t : State) (pushed : Bool) (mode : Mode) (ea : Word) : t.afterStore pushed mode ea =
    { t with yellowPending := t.yellowPending || yellowPush mode (.mem ea pushed) } := by
  have hyellow : yellowPush mode (.mem ea pushed) = true ↔ pushed = true ∧ mode = .kernel ∧ ea < 0o400 := by
    simp [yellowPush, and_assoc]
  rw [afterStore_eq_ite]
  split
  · rename_i h
    rw [hyellow.mpr h, Bool.or_true]
  · rename_i h
    rw [Bool.eq_false_iff.mpr fun hy => h (hyellow.mp hy), Bool.or_false]

/-! ## Physical writes -/

/-- The register of the I/O page that answers at a physical address (20 R62, R64). -/
def physTarget (s : State) (pa : PhysAddr) : Option IoReg := if pa.toNat < s.cfg.memTop then none else ioRegAt pa

/-- What a physical write that completed leaves as it was: all but its bytes and the register that answered (20 R62, log 8). -/
structure Written (w : Width) (pa : PhysAddr) (s t : State) : Prop where
  cells : ∀ c, t.cell c = s.cell c
  bytes : ∀ a, ¬ (pa.toNat ≤ a ∧ a < pa.toNat + widthBytes w) → t.byteAt a = s.byteAt a
  held : ∀ r, physTarget s pa ≠ some r → t.ioHeld r = s.ioHeld r
  mmr2 : t.mmr2 = s.mmr2
  sr : t.sr = s.sr
  switchMoves : t.switchMoves = s.switchMoves
  pending : t.pending = s.pending
  traceInhibit : t.traceInhibit = s.traceInhibit
  run : t.run = s.run
  yellowPending : t.yellowPending = s.yellowPending
  ia : t.ia = s.ia
  cfg : t.cfg = s.cfg

/-- A write to a device changes nothing of the state (log 8). -/
theorem written_refl (w : Width) (pa : PhysAddr) (s : State) : Written w pa s s := by
  constructor <;> intros <;> rfl

/-- A write that changes memory alone. -/
theorem written_of_memory {w : Width} {pa : PhysAddr} {s : State} (m : Memory)
    (hbytes : ∀ a, ¬ (pa.toNat ≤ a ∧ a < pa.toNat + widthBytes w) → ({ s with mem := m } : State).byteAt a = s.byteAt a) :
    Written w pa s { s with mem := m } where
  cells := fun c => by cases c <;> rfl
  bytes := hbytes
  held := fun r _ => by cases r <;> rfl
  mmr2 := rfl
  sr := rfl
  switchMoves := rfl
  pending := rfl
  traceInhibit := rfl
  run := rfl
  yellowPending := rfl
  ia := rfl
  cfg := rfl

/-- A write to a register loads that register, but for MMR2, which a write leaves alone (20 R64 to R79). -/
theorem ioWrite_ok {r : IoReg} {v : Word} {s t : State} (h : ioWrite r v s = .ok () t) :
    ∃ w, t = s.withIo r w ∧ t.mmr2 = s.mmr2 := by
  cases r with
  | pdr mode page => cases h; exact ⟨_, rfl, setPdr_mmr2 ..⟩
  | par mode page => cases h; exact ⟨_, rfl, setPar_mmr2 ..⟩
  | switches | mmr0 | mmr2 => cases h; exact ⟨_, rfl, rfl⟩
  | psw =>
    rw [ioWrite] at h
    split at h
    · cases h; exact ⟨_, rfl, rfl⟩
    · cases h

theorem written_of_ioWrite {w : Width} {pa : PhysAddr} {r : IoReg} {v : Word} {s t : State} (hr : physTarget s pa = some r)
    (h : ioWrite r v s = .ok () t) : Written w pa s t := by
  obtain ⟨x, rfl, hmmr2⟩ := ioWrite_ok h
  have hreset := withIo_registersReset s ⟨r, .anyValue⟩ x
  exact
    { hreset with
      bytes := fun a _ => congrArg (memByte · a) hreset.mem
      held := fun r' hr' => hreset.unlisted r' fun hmem => hr' (by rw [hr, List.mem_singleton.mp hmem])
      mmr2 := hmmr2 }

theorem physWriteWord_written {pa : PhysAddr} {v : Word} {s t : State} (h : physWriteWord pa v s = .ok () t) :
    Written .word pa s t := by
  unfold physWriteWord at h
  split at h
  · cases h
    exact written_of_memory _ fun a ha => byteAt_putWord_of_ne s v (by simp only [widthBytes] at ha; omega)
      (by simp only [widthBytes] at ha; omega)
  · rename_i htop
    split at h
    · rename_i r hr
      exact written_of_ioWrite ((if_neg htop).trans hr) h
    · split at h <;> cases h
      exact written_refl ..

theorem physWriteByte_written {pa : PhysAddr} {v : Byte} {s t : State} (h : physWriteByte pa v s = .ok () t) :
    Written .byte pa s t := by
  unfold physWriteByte at h
  split at h
  · cases h
    exact written_of_memory _ fun a ha => byteAt_putByte_of_ne s v (by simp only [widthBytes] at ha; omega)
  · rename_i htop
    split at h
    · rename_i r hr
      exact written_of_ioWrite ((if_neg htop).trans hr) h
    · split at h <;> cases h
      exact written_refl ..

/-! ## Virtual writes -/

section
variable {s t : State} {mode : Mode} {va : Word} {hit : Bool}

/-- A write that completed is a physical write, marked in the PDR of its page (20 R61, R76). -/
theorem memWriteWordIn_written {v : Word} (h : memWriteWordIn mode va v s = .ok hit t) :
    ∃ u, Written .word (s.physAddr mode va) s u ∧ t = u.afterWrite (mmuEnabled s.mmr0) mode va := by
  obtain ⟨heven, hallowed⟩ := memWriteWordIn_ok_allowed h
  rw [memWriteWordIn_of_allowed v heven hallowed] at h
  cases hw : physWriteWord (s.physAddr mode va) v s with
  | error e u => rw [hw] at h; cases h
  | ok _ u => rw [hw] at h; cases h; exact ⟨u, physWriteWord_written hw, rfl⟩

theorem memWriteByteIn_written {v : Byte} (h : memWriteByteIn mode va v s = .ok hit t) :
    ∃ u, Written .byte (s.physAddr mode va) s u ∧ t = u.afterWrite (mmuEnabled s.mmr0) mode va := by
  rw [memWriteByteIn_apply] at h
  split at h
  · cases h
  · cases hw : physWriteByte (s.physAddr mode va) v s with
    | error e u => rw [hw] at h; cases h
    | ok _ u => rw [hw] at h; cases h; exact ⟨u, physWriteByte_written hw, rfl⟩

end

/-! ## Stores -/

/-- What a store to `loc` in the address space of `space` that completed leaves as it was (30 R113). -/
structure Stored (w : Width) (space : Mode) (loc : Loc) (s t : State) : Prop where
  cells : cellsKept s t [locCell s.mode loc]
  bytes : bytesKept w space s loc s t
  sr : t.sr = s.sr
  switchMoves : t.switchMoves = s.switchMoves
  others : othersAfterStore space s loc s t
  psw : ioTarget space s loc ≠ some .psw → t.psw = s.psw

theorem setReg_stored (w : Width) (space : Mode) (r : Reg) (v : Word) (s : State) : Stored w space (.reg r) s (s.setReg r v) where
  cells := fun c hc => setReg_cell_of_ne v fun heq => hc (List.mem_singleton.mpr heq.symm)
  bytes := fun a _ => by rw [State.byteAt, setReg_mem]; rfl
  sr := setReg_sr s r v
  switchMoves := setReg_switchMoves s r v
  others := by
    have hswitches : switchesFollow s (s.setReg r v) := ⟨0, setReg_sr s r v, setReg_switchMoves s r v⟩
    simpa [othersAfterStore, State.par, State.pdr, writtenPage, yellowPush] using hswitches
  psw := fun _ => setReg_psw s r v

/-- A write to memory or to the I/O page with its marks is a store (20 R61, R67, R76, 30 R113). -/
theorem written_stored {w : Width} {space : Mode} {ea : Word} {s u : State} (h : Written w (s.physAddr space ea) s u)
    (pushed : Bool) : Stored w space (.mem ea pushed) s
      ((u.afterWrite (mmuEnabled s.mmr0) space ea).afterStore pushed s.mode ea) := by
  rw [afterStore_eq_yellow]
  set t := u.afterWrite (mmuEnabled s.mmr0) space ea with ht
  have hpdr : ∀ mode page, ioTarget space s (.mem ea pushed) ≠ some (.pdr mode page) → t.pdr mode page =
      if writtenPage space s (.mem ea pushed) = some (mode, page) then pdrSetC (s.pdr mode page) else s.pdr mode page := by
    intro mode page htarget
    have hheld : u.pdr mode page = s.pdr mode page := h.held (.pdr mode page) htarget
    rw [ht, afterWrite_pdr, hheld]
    refine if_congr ?_ rfl rfl
    rw [writtenPage]
    cases mmuEnabled s.mmr0 <;> simp [eq_comm]
  have hsr : t.sr = s.sr := (afterWrite_sr ..).trans h.sr
  have hmoves : t.switchMoves = s.switchMoves := (afterWrite_switchMoves ..).trans h.switchMoves
  exact
    { cells := fun c _ => Eq.trans (by cases c <;> rfl) ((afterWrite_cell u _ _ _ c).trans (h.cells c))
      bytes := fun a ha => (afterWrite_byteAt u _ _ _ a).trans (h.bytes a ha)
      sr := hsr
      switchMoves := hmoves
      others :=
        ⟨⟨0, hsr, hmoves⟩, (afterWrite_mmr2 ..).trans h.mmr2, (afterWrite_pending ..).trans h.pending,
          (afterWrite_traceInhibit ..).trans h.traceInhibit, (afterWrite_run ..).trans h.run, (afterWrite_ia ..).trans h.ia,
          (afterWrite_cfg ..).trans h.cfg, fun htarget => (afterWrite_dr ..).trans (h.held .switches htarget),
          fun htarget => (afterWrite_mmr0 ..).trans (h.held .mmr0 htarget),
          fun mode page htarget => (afterWrite_par ..).trans (h.held (.par mode page) htarget), hpdr,
          congrArg (· || _) ((afterWrite_yellowPending ..).trans h.yellowPending)⟩
      psw := fun htarget => (afterWrite_psw ..).trans (h.held .psw htarget) }

theorem storeWordIn_stored {space : Mode} {loc : Loc} {v : Word} {s t : State} {hit : Bool}
    (h : storeWordIn space loc v s = .ok hit t) : Stored .word space loc s t := by
  cases loc with
  | reg r => cases h; exact setReg_stored ..
  | mem ea pushed =>
    rw [storeWordIn_mem] at h
    cases hw : memWriteWordIn space ea v s with
    | error e u => rw [hw] at h; cases h
    | ok _ u =>
      rw [hw] at h
      cases h
      obtain ⟨u, hu, rfl⟩ := memWriteWordIn_written hw
      exact written_stored hu pushed

theorem storeByteAs_stored {dest : ByteRegDest} {loc : Loc} {v : Byte} {s t : State} {hit : Bool}
    (h : storeByteAs dest loc v s = .ok hit t) : Stored .byte s.mode loc s t := by
  cases loc with
  | reg r => cases h; exact setReg_stored ..
  | mem ea pushed =>
    rw [storeByteAs_mem] at h
    cases hw : memWriteByteIn s.mode ea v s with
    | error e u => rw [hw] at h; cases h
    | ok _ u =>
      rw [hw] at h
      cases h
      obtain ⟨u, hu, rfl⟩ := memWriteByteIn_written hw
      exact written_stored hu pushed

/-! ## From the beginning of an instruction to its store -/

/-- The registers with a bus address that reads and register changes leave as they were. -/
theorem paging_of_othersKept {s t : State} (h : othersKept s t) :
    (∀ mode page, t.par mode page = s.par mode page) ∧ ∀ mode page, t.pdr mode page = s.pdr mode page := by
  obtain ⟨-, -, -, -, hkpar, hkpdr, hupar, hupdr, -⟩ := h
  constructor <;> intro mode page <;> cases mode <;> simp only [State.par, State.pdr, hkpar, hkpdr, hupar, hupdr]

/-- What a store leaves of the other registers, told from a state before it in which they were the same. -/
theorem othersAfterStore_of_othersKept {space : Mode} {loc : Loc} {s s1 s2 t : State} (h : othersKept s s2)
    (hsr : t.sr = s2.sr) (hmoves : t.switchMoves = s2.switchMoves) (hstore : othersAfterStore space s1 loc s2 t) :
    othersAfterStore space s1 loc s t := by
  obtain ⟨hpar, hpdr⟩ := paging_of_othersKept h
  obtain ⟨⟨n, hn, hn'⟩, hdr, hmmr0, hmmr2, -, -, -, -, hpending, hinhibit, hrun, hyellow, hia, hcfg⟩ := h
  obtain ⟨-, tmmr2, tpending, tinhibit, trun, tia, tcfg, tdr, tmmr0, tpar, tpdr, tyellow⟩ := hstore
  exact ⟨⟨n, hsr.trans hn, hmoves.trans hn'⟩, tmmr2.trans hmmr2, tpending.trans hpending, tinhibit.trans hinhibit, trun.trans hrun,
    tia.trans hia, tcfg.trans hcfg, fun ht => (tdr ht).trans hdr, fun ht => (tmmr0 ht).trans hmmr0,
    fun mode page ht => (tpar mode page ht).trans (hpar mode page), fun mode page ht => hpdr mode page ▸ tpdr mode page ht,
    hyellow ▸ tyellow⟩

@[simp] theorem ioTarget_drawn (space : Mode) (s : State) (n : Reads) (loc : Loc) :
    ioTarget space (s.drawn n) loc = ioTarget space s loc := by cases loc <;> rfl

/-- Reads before a store move neither the place it reaches nor what it may leave changed. -/
theorem bytesKept_drawn {w : Width} {space : Mode} {s1 s t : State} {n : Reads} {loc : Loc}
    (h : bytesKept w space (s1.drawn n) loc s t) : bytesKept w space s1 loc s t := by
  cases loc <;> exact h

theorem othersAfterStore_drawn {space : Mode} {s1 s t : State} {n : Reads} {loc : Loc}
    (h : othersAfterStore space (s1.drawn n) loc s t) : othersAfterStore space s1 loc s t := by
  cases loc <;> exact h

/-- Assigning the condition codes, or leaving the PSW, keeps what is above them (10 R25, 20 R65). -/
theorem pswAboveKept_codesAfter {s t : State} (h : t.psw = s.psw) (hit : Bool) (f : Flags) :
    pswAboveKept s (t.codesAfter hit f) := by
  cases hit
  · rw [pswAboveKept, codesAfter_miss, setFlags_psw, setFlags_flags, h]
  · rw [pswAboveKept, codesAfter_hit, State.flags, h, pswWithFlags_pswFlags]

/-- What an instruction that began in `s`, evaluated its destination `loc` in `s1`, stored there and assigned the condition codes leaves
as it was in its final state `t`; `changed` are the register cells it may change. -/
def StoreFrame (w : Width) (changed : List (Option RegCell)) (s s1 : State) (loc : Loc) (t : State) : Prop :=
  cellsKept s t changed ∧ bytesKept w s.mode s1 loc s t ∧ othersAfterStore s.mode s1 loc s t ∧
    (ioTarget s.mode s1 loc ≠ some .psw → pswAboveKept s t)

/-- The frame of reads followed by a store and the codes. -/
theorem ReadsOnly.afterStore {w : Width} {changed : List (Option RegCell)} {s s1 s2 s3 : State} {loc : Loc}
    (h : ReadsOnly s changed s1) (hload : ∃ n, s2 = s1.drawn n) (hstore : Stored w s2.mode loc s2 s3) (hit : Bool) (f : Flags) :
    StoreFrame w (changed ++ [locCell s.mode loc]) s s1 loc (s3.codesAfter hit f) := by
  obtain ⟨n, rfl⟩ := hload
  have h2 := h.drawn n
  rw [h2.mode] at hstore
  have hbytes : bytesKept w s.mode s1 loc s s3 := fun a ha => (bytesKept_drawn hstore.bytes a ha).trans (h2.memory a)
  have hothers : othersAfterStore s.mode s1 loc s s3 :=
    othersAfterStore_of_othersKept h2.others hstore.sr hstore.switchMoves (othersAfterStore_drawn hstore.others)
  have hcells : cellsKept s s3 (changed ++ [locCell s.mode loc]) := by
    intro c hc
    rw [List.mem_append, not_or] at hc
    exact (hstore.cells c (h2.mode ▸ hc.2)).trans (h2.cells c hc.1)
  have hpsw : ioTarget s.mode s1 loc ≠ some .psw → pswAboveKept s (s3.codesAfter hit f) := fun htarget =>
    pswAboveKept_codesAfter ((hstore.psw (by rwa [ioTarget_drawn])).trans h2.psw) hit f
  refine ⟨fun c hc => ?_, fun a ha => ?_, ?_, hpsw⟩
  · rw [← hcells c hc]
    cases hit <;> cases c <;> rfl
  · rw [← hbytes a ha]
    cases hit <;> rfl
  · cases hit <;> exact hothers

/-! ## The shapes of instructions that store (41 R150, 42 R190) -/

/-- Run after reads, the pseudocode evaluates the destination `dd` and leaves all but what a store there changes as it was. -/
def StoresOnlyTo (w : Width) (dd : Operand) (body : Action Unit) : Prop :=
  ∀ (s t u : State) (changed : List (Option RegCell)), ReadsOnly s changed t → body t = .ok () u →
    ∃ loc s1, operand w dd t = .ok loc s1 ∧
      StoreFrame w (changed ++ [steppedCell s.mode dd] ++ [locCell s.mode loc]) s s1 loc u

theorem rmwWord_storesOnlyTo (op : Flags → Word → Word × Flags) (dd : Operand) : StoresOnlyTo .word dd (rmwWord op dd) := by
  intro s t u changed h hrun
  obtain ⟨loc, s1, d, s2, hit, s3, hoperand, hload, hstore, rfl⟩ := rmwWord_ok hrun
  exact ⟨loc, s1, hoperand, (h.afterOperand hoperand).afterStore (loadWord_ok hload) (storeWordIn_stored hstore) ..⟩

theorem rmwByte_storesOnlyTo (op : Flags → Byte → Byte × Flags) (dd : Operand) : StoresOnlyTo .byte dd (rmwByte op dd) := by
  intro s t u changed h hrun
  obtain ⟨loc, s1, d, s2, hit, s3, hoperand, hload, hstore, rfl⟩ := rmwByte_ok hrun
  exact ⟨loc, s1, hoperand, (h.afterOperand hoperand).afterStore (loadByte_ok hload) (storeByteAs_stored hstore) ..⟩

theorem putWordTo_storesOnlyTo (op : Flags → Word × Flags) (dd : Operand) : StoresOnlyTo .word dd (putWordTo op dd) := by
  intro s t u changed h hrun
  obtain ⟨loc, s1, hit, s3, hoperand, hstore, rfl⟩ := putWordTo_ok hrun
  exact ⟨loc, s1, hoperand, (h.afterOperand hoperand).afterStore ⟨⟨0, 0⟩, (drawn_none s1).symm⟩ (storeWordIn_stored hstore) ..⟩

theorem putByteTo_storesOnlyTo (op : Flags → Byte × Flags) (dd : Operand) : StoresOnlyTo .byte dd (putByteTo op dd) := by
  intro s t u changed h hrun
  obtain ⟨loc, s1, hit, s3, hoperand, hstore, rfl⟩ := putByteTo_ok hrun
  exact ⟨loc, s1, hoperand, (h.afterOperand hoperand).afterStore ⟨⟨0, 0⟩, (drawn_none s1).symm⟩ (storeByteAs_stored hstore) ..⟩

/-- What `movb` does once its source has been read: a register destination is sign-extended (42 R192). -/
def putMovb (dd : Operand) (v : Byte) : Action Unit := do
  let loc ← operand .byte dd
  let old ← readFlags
  let hit ← storeByteAs .signExtendAll loc v
  assignFlags hit (logicFlags old v)

theorem execMovb_eq (ss dd : Operand) (s : State) : execMovb ss dd s = runInstr (sourceByte ss >>= putMovb dd) s := rfl

theorem putMovb_storesOnlyTo (v : Byte) (dd : Operand) : StoresOnlyTo .byte dd (putMovb dd v) := by
  intro s t u changed h hrun
  obtain ⟨loc, s1, hoperand, hrun⟩ := bind_eq_ok.mp hrun
  rw [bind_of_ok (readFlags_apply s1)] at hrun
  obtain ⟨hit, s3, hstore, hrun⟩ := bind_eq_ok.mp hrun
  rw [assignFlags_apply] at hrun
  cases hrun
  exact ⟨loc, s1, hoperand,
    (h.afterOperand hoperand).afterStore ⟨⟨0, 0⟩, (drawn_none s1).symm⟩ (storeByteAs_stored hstore) hit _⟩

/-! ## Sources, and the shapes of instructions that store nothing -/

section
variable {s t u : State} {changed : List (Option RegCell)}

theorem ReadsOnly.afterSourceWord {ss : Operand} {x : Word} (h : ReadsOnly s changed t) (hrun : sourceWord ss t = .ok x u) :
    ReadsOnly s (changed ++ [steppedCell s.mode ss]) u := by
  obtain ⟨loc, s1, hoperand, hload⟩ := bind_eq_ok.mp hrun
  obtain ⟨n, rfl⟩ := loadWord_ok hload
  exact (h.afterOperand hoperand).drawn n

theorem ReadsOnly.afterSourceByte {ss : Operand} {x : Byte} (h : ReadsOnly s changed t) (hrun : sourceByte ss t = .ok x u) :
    ReadsOnly s (changed ++ [steppedCell s.mode ss]) u := by
  obtain ⟨loc, s1, hoperand, hload⟩ := bind_eq_ok.mp hrun
  obtain ⟨n, rfl⟩ := loadByte_ok hload
  exact (h.afterOperand hoperand).drawn n

/-- What an instruction that stores nothing and assigns the condition codes leaves as it was. -/
def ReadFrame (changed : List (Option RegCell)) (s t : State) : Prop :=
  cellsKept s t changed ∧ memoryKept s t ∧ othersKept s t ∧ pswAboveKept s t

theorem ReadsOnly.setFlags (h : ReadsOnly s changed t) (f : Flags) : ReadFrame changed s (t.setFlags f) := by
  refine ⟨fun c hc => ?_, h.memory, h.others, pswAboveKept_codesAfter h.psw false f⟩
  rw [← h.cells c hc]
  cases c <;> rfl

theorem ReadsOnly.afterTestWord {op : Flags → Word → Flags} {dd : Operand} (h : ReadsOnly s changed t)
    (hrun : testWord op dd t = .ok () u) : ReadFrame (changed ++ [steppedCell s.mode dd]) s u := by
  obtain ⟨loc, s1, d, s2, hoperand, hload, rfl⟩ := testWord_ok hrun
  exact (h.afterSourceWord (sourceWord_of_ok hoperand hload)).setFlags _

theorem ReadsOnly.afterTestByte {op : Flags → Byte → Flags} {dd : Operand} (h : ReadsOnly s changed t)
    (hrun : testByte op dd t = .ok () u) : ReadFrame (changed ++ [steppedCell s.mode dd]) s u := by
  obtain ⟨loc, s1, d, s2, hoperand, hload, rfl⟩ := testByte_ok hrun
  exact (h.afterSourceByte (sourceByte_of_ok hoperand hload)).setFlags _

theorem compareWord_frame {op : Flags → Word → Word → Flags} {ss dd : Operand} (hrun : compareWord op ss dd s = .ok () u) :
    ReadFrame [steppedCell s.mode ss, steppedCell s.mode dd] s u := by
  obtain ⟨x, s2, hsource, hrun⟩ := bind_eq_ok.mp hrun
  exact ((readsOnly_refl s).afterSourceWord hsource).afterTestWord hrun

theorem compareByte_frame {op : Flags → Byte → Byte → Flags} {ss dd : Operand} (hrun : compareByte op ss dd s = .ok () u) :
    ReadFrame [steppedCell s.mode ss, steppedCell s.mode dd] s u := by
  obtain ⟨x, s2, hsource, hrun⟩ := bind_eq_ok.mp hrun
  exact ((readsOnly_refl s).afterSourceByte hsource).afterTestByte hrun

end

/-- An instruction that completes without a trap ran its pseudocode to the end (60 R266, log 11). -/
theorem completes_ok {i : Instr} {body : Action Unit} {s t : State} (hexec : exec i s = runInstr body s) (h : completes i s t) :
    body s = .ok () t := by
  obtain ⟨hnext, hnotrap⟩ := h
  rw [hexec] at hnext
  rcases runInstr_next_cases hnext with hok | ⟨e, u, -, htrap⟩
  · exact hok
  · rw [takeTrap_marks htrap] at hnotrap
    cases hnotrap

/-! ## Which instructions have which shape -/

/-- A word instruction with one destination reads, changes and writes it, or writes it unread (41 R150, 20 R58). -/
theorem wordDestination_shape (dd : Operand) : ∀ i ∈ [Instr.swab dd, .clr dd, .com dd, .inc dd, .dec dd, .neg dd, .adc dd, .sbc dd,
    .ror dd, .rol dd, .asr dd, .asl dd, .sxt dd],
    ∃ body, StoresOnlyTo .word dd body ∧ ∀ s, exec i s = runInstr body s := by
  have hrmw := fun op => rmwWord_storesOnlyTo op dd
  have hput := fun op => putWordTo_storesOnlyTo op dd
  simp only [List.forall_mem_cons]
  exact ⟨⟨_, hrmw swabOp, fun _ => rfl⟩, ⟨_, hput clrOp, fun _ => rfl⟩, ⟨_, hrmw comOp, fun _ => rfl⟩, ⟨_, hrmw incOp, fun _ => rfl⟩,
    ⟨_, hrmw decOp, fun _ => rfl⟩, ⟨_, hrmw negOp, fun _ => rfl⟩, ⟨_, hrmw adcOp, fun _ => rfl⟩, ⟨_, hrmw sbcOp, fun _ => rfl⟩,
    ⟨_, hrmw rorOp, fun _ => rfl⟩, ⟨_, hrmw rolOp, fun _ => rfl⟩, ⟨_, hrmw asrOp, fun _ => rfl⟩, ⟨_, hrmw aslOp, fun _ => rfl⟩,
    ⟨_, hput sxtOp, fun _ => rfl⟩, List.forall_mem_nil _⟩

theorem byteDestination_shape (dd : Operand) : ∀ i ∈ [Instr.clrb dd, .comb dd, .incb dd, .decb dd, .negb dd, .adcb dd, .sbcb dd,
    .rorb dd, .rolb dd, .asrb dd, .aslb dd], ∃ body, StoresOnlyTo .byte dd body ∧ ∀ s, exec i s = runInstr body s := by
  have hrmw := fun op => rmwByte_storesOnlyTo op dd
  simp only [List.forall_mem_cons]
  exact ⟨⟨_, putByteTo_storesOnlyTo clrOp dd, fun _ => rfl⟩, ⟨_, hrmw comOp, fun _ => rfl⟩, ⟨_, hrmw incOp, fun _ => rfl⟩,
    ⟨_, hrmw decOp, fun _ => rfl⟩, ⟨_, hrmw negOp, fun _ => rfl⟩, ⟨_, hrmw adcOp, fun _ => rfl⟩, ⟨_, hrmw sbcOp, fun _ => rfl⟩,
    ⟨_, hrmw rorOp, fun _ => rfl⟩, ⟨_, hrmw rolOp, fun _ => rfl⟩, ⟨_, hrmw asrOp, fun _ => rfl⟩, ⟨_, hrmw aslOp, fun _ => rfl⟩,
    List.forall_mem_nil _⟩

/-- A word instruction with two operands reads its source, then stores to its destination (30 R115, 42 R190). -/
theorem wordSourceDestination_shape (ss dd : Operand) : ∀ i ∈ [Instr.mov ss dd, .bic ss dd, .bis ss dd, .add ss dd, .sub ss dd],
    ∃ rest : Word → Action Unit, (∀ x, StoresOnlyTo .word dd (rest x)) ∧ ∀ s, exec i s = runInstr (sourceWord ss >>= rest) s := by
  have hrmw := fun op => rmwWord_storesOnlyTo op dd
  simp only [List.forall_mem_cons]
  exact ⟨⟨_, fun x => putWordTo_storesOnlyTo (fun old => (x, logicFlags old x)) dd, fun _ => rfl⟩,
    ⟨_, fun x => hrmw fun old d => bicOp old x d, fun _ => rfl⟩, ⟨_, fun x => hrmw fun old d => bisOp old x d, fun _ => rfl⟩,
    ⟨_, fun x => hrmw fun old d => addOp old x d, fun _ => rfl⟩, ⟨_, fun x => hrmw fun old d => subOp old x d, fun _ => rfl⟩,
    List.forall_mem_nil _⟩

theorem byteSourceDestination_shape (ss dd : Operand) : ∀ i ∈ [Instr.movb ss dd, .bicb ss dd, .bisb ss dd],
    ∃ rest : Byte → Action Unit, (∀ x, StoresOnlyTo .byte dd (rest x)) ∧ ∀ s, exec i s = runInstr (sourceByte ss >>= rest) s := by
  have hrmw := fun op => rmwByte_storesOnlyTo op dd
  simp only [List.forall_mem_cons]
  exact ⟨⟨putMovb dd, fun x => putMovb_storesOnlyTo x dd, execMovb_eq ss dd⟩,
    ⟨_, fun x => hrmw fun old d => bicOp old x d, fun _ => rfl⟩, ⟨_, fun x => hrmw fun old d => bisOp old x d, fun _ => rfl⟩,
    List.forall_mem_nil _⟩

end Sys2Proof.Machine
end

section
/-! The statements about frames that are settled. -/

namespace Sys2Proof.Proofs

open Sys2Proof.Machine

/-- Settles O55: from the state before the instruction, with nothing read yet. -/
theorem frameOneDestination : Obligations.FrameOneDestination := by
  intro w dd i s t hi hcompletes
  have hshape : ∃ body, StoresOnlyTo w dd body ∧ ∀ s, exec i s = runInstr body s := by
    rcases hi with ⟨rfl, hi⟩ | ⟨rfl, hi⟩
    · exact wordDestination_shape dd i hi
    · exact byteDestination_shape dd i hi
  obtain ⟨body, hstores, hexec⟩ := hshape
  exact hstores s s t [] (readsOnly_refl s) (completes_ok (hexec s) hcompletes)

/-- Settles O56: from the state before the instruction, with the source read. -/
theorem frameTwoOperands : Obligations.FrameTwoOperands := by
  intro w ss dd i s s2 t hi hcompletes
  rcases hi with ⟨rfl, hi, x, hsource⟩ | ⟨rfl, hi, x, hsource⟩
  · obtain ⟨rest, hstores, hexec⟩ := wordSourceDestination_shape ss dd i hi
    have hrun := completes_ok (hexec s) hcompletes
    rw [bind_of_ok hsource] at hrun
    exact hstores x s s2 t _ ((readsOnly_refl s).afterSourceWord hsource) hrun
  · obtain ⟨rest, hstores, hexec⟩ := byteSourceDestination_shape ss dd i hi
    have hrun := completes_ok (hexec s) hcompletes
    rw [bind_of_ok hsource] at hrun
    exact hstores x s s2 t _ ((readsOnly_refl s).afterSourceByte hsource) hrun

/-- Settles O57: the four that compare, then the two that test. -/
theorem frameReadOnly : Obligations.FrameReadOnly := by
  intro ss dd i s t
  simp only [List.mem_cons, List.not_mem_nil, or_false]
  refine ⟨fun hi hcompletes => ?_, fun hi hcompletes => ?_⟩
  · rcases hi with rfl | rfl | rfl | rfl
    · exact compareWord_frame (completes_ok (body := compareWord cmpOp ss dd) rfl hcompletes)
    · exact compareByte_frame (completes_ok (body := compareByte cmpOp ss dd) rfl hcompletes)
    · exact compareWord_frame (completes_ok (body := compareWord bitOp ss dd) rfl hcompletes)
    · exact compareByte_frame (completes_ok (body := compareByte bitOp ss dd) rfl hcompletes)
  · rcases hi with rfl | rfl
    · exact (readsOnly_refl s).afterTestWord (completes_ok (body := testWord tstOp dd) rfl hcompletes)
    · exact (readsOnly_refl s).afterTestByte (completes_ok (body := testByte tstOp dd) rfl hcompletes)

end Sys2Proof.Proofs
end

section
/-! SUPPORT. What `halt`, `reset` and the returns from a trap do in each mode (40 R141, R143, R146, R147). -/

namespace Sys2Proof.Machine

/-! ## The run state (40 R141, R142) -/

theorem exec_halt_kernel {s : State} (hmode : s.mode = .kernel) : exec .halt s = .next { s with run := .halted } :=
  runInstr_of_ok (by rw [bind_of_ok (currentMode_apply s), hmode]; rfl)

/-- In user mode `halt` only raises the exception of vector 004 (40 R141). -/
theorem exec_halt_user {s : State} (hmode : s.mode = .user) : exec .halt s = runInstr (raise .busError) s := by
  rw [runInstr_of_raised (raise_apply .busError s)]
  exact runInstr_of_raised (by rw [bind_of_ok (currentMode_apply s), hmode]; rfl)

theorem exec_wait (s : State) : exec .wait s = .next { s with run := .waiting } := runInstr_of_ok (setRun_apply .waiting s)

/-! ## Returning from a trap (40 R143, R147) -/

section
variable {s s1 s2 t u : State} {changed : List (Option RegCell)} {newPc popped : Word}

/-- A pop changes the stack pointer of the current mode alone (10 R23). -/
theorem ReadsOnly.afterPop (h : ReadsOnly s changed t) {v : Word} (hsp : cellOf s.mode .sp ∈ changed) (hp : pop t = .ok v u) :
    ReadsOnly s changed u := by
  rw [pop_apply] at hp
  cases hr : memReadWordIn t.mode (t.reg .sp) t with
  | error e t1 => rw [hr] at hp; cases hp
  | ok w t1 =>
    rw [hr] at hp
    cases hp
    exact (h.afterRead hr).setReg _ (.inr hsp)

/-- The two pops of a return change the stack pointer and the PC alone, so the PSW it loads over is that of the program that returns. -/
theorem returnPops_readsOnly (hpc : pop s = .ok newPc s1) (hps : pop { s1 with pc := newPc } = .ok popped s2) :
    ReadsOnly s [cellOf s.mode .sp] s2 := by
  have hsp : cellOf s.mode .sp ∈ [cellOf s.mode .sp] := List.mem_singleton_self _
  have h1 : ReadsOnly s [cellOf s.mode .sp] s1 := ((readsOnly_refl s).append _).afterPop hsp hpc
  have h1pc : ReadsOnly s [cellOf s.mode .sp] { s1 with pc := newPc } := h1.setReg (r := .pc) newPc (.inl rfl)
  exact h1pc.afterPop hsp hps

theorem returnFromTrap_of_pops (hpc : pop s = .ok newPc s1) (hps : pop { s1 with pc := newPc } = .ok popped s2) :
    returnFromTrap s = loadReturnPsw popped s2 := by
  rw [returnFromTrap, bind_of_ok hpc, bind_of_ok (writeReg_apply .pc newPc s1)]
  exact bind_of_ok hps

theorem loadReturnPsw_kernel (hmode : s.mode = .kernel) : loadReturnPsw popped s =
    if pswWritable popped = true then .ok () { s with psw := pswRead popped } else .error (.refusal .reservedMode) s := by
  rw [loadReturnPsw, hmode]

theorem loadReturnPsw_user (hmode : s.mode = .user) :
    loadReturnPsw popped s = .ok () { s with psw := pswOfUserReturn s.psw popped } := by
  rw [loadReturnPsw, hmode]

/-- Where the return itself completes, `rti` ends there and `rtt` holds off the trace trap besides. -/
theorem exec_returns_of_ok (h : returnFromTrap s = .ok () t) :
    exec .rti s = .next t ∧ exec .rtt s = .next { t with traceInhibit := true } :=
  ⟨runInstr_of_ok h, runInstr_of_ok (by rw [bind_of_ok h, inhibitTrace_apply])⟩

theorem exec_returns_of_refusal {r : Refusal} (h : returnFromTrap s = .error (.refusal r) t) :
    exec .rti s = .refused r ∧ exec .rtt s = .refused r :=
  ⟨runInstr_of_refusal h, runInstr_of_refusal (bind_of_error h)⟩

end

/-! ## RESET_EFFECT (40 R146, log 5) -/

section
variable {s t : State} {l : List RegisterReset}

/-- The word an action starts from is what its register holds, on the bits the register has (20 R64). -/
theorem ioOld_eq_ioHeld_and (s : State) (r : IoReg) : s.ioOld r = s.ioHeld r &&& ioBits r := by
  cases r with
  | switches => exact (and_word_ones s.dr).symm
  | mmr2 => exact (and_word_ones s.mmr2).symm
  | pdr | par | mmr0 | psw => rfl

/-- Whether a load starts from a register or from its existing bits alone makes no difference to those bits. -/
theorem load_masked (held keep value bits : Word) :
    ((held &&& bits) &&& keep ||| value) &&& bits = (held &&& keep ||| value) &&& bits := by
  ext i hi
  simp only [BitVec.getElem_and, BitVec.getElem_or]
  cases bits[i] <;> simp

/-- A register that the actions name once, with a value, ends with that value: no other action reaches it. -/
theorem resetRegisters_listed (h : resetRegisters l s = .ok () t) {r : IoReg} {keep value : Word}
    (hmem : ⟨r, .load keep value⟩ ∈ l) (honce : (l.map (·.reg)).count r = 1) :
    t.ioHeld r = (s.ioHeld r &&& keep ||| value) &&& ioBits r := by
  induction l generalizing s with
  | nil => cases hmem
  | cons a rest ih =>
    obtain ⟨_, u, hfirst, hrest⟩ := bind_eq_ok.mp h
    obtain ⟨hreset, v, hheld, -, hv⟩ := resetRegister_ok hfirst
    rw [List.map_cons, List.count_cons] at honce
    rcases List.mem_cons.mp hmem with rfl | hin
    · rw [if_pos (beq_self_eq_true r)] at honce
      have hout : r ∉ rest.map (·.reg) := List.count_eq_zero.mp (Nat.succ.inj honce)
      rw [(resetRegisters_ok hrest).unlisted r hout, hheld, hv keep value rfl, ioOld_eq_ioHeld_and, load_masked]
    · have hcount : 0 < (rest.map (·.reg)).count r := List.count_pos_iff.mpr (List.mem_map_of_mem (f := (·.reg)) hin)
      by_cases ha : a.reg == r
      · rw [if_pos ha] at honce
        omega
      · rw [if_neg ha] at honce
        have hne : r ∉ [a].map (·.reg) := fun hr => ha (beq_iff_eq.mpr (List.mem_singleton.mp hr).symm)
        rw [ih hrest hin honce, hreset.unlisted r hne]

/-- The actions on registers complete, or a reserved mode is refused; they raise no exception (10 R26). -/
theorem resetRegisters_cases (l : List RegisterReset) (s : State) :
    (∃ t, resetRegisters l s = .ok () t) ∨ ∃ t, resetRegisters l s = .error (.refusal .reservedMode) t := by
  induction l generalizing s with
  | nil => exact .inl ⟨s, rfl⟩
  | cons a rest ih =>
    obtain ⟨v, k, -, ha⟩ := resetRegister_cases a s
    split at ha
    · exact .inr ⟨_, bind_of_error ha⟩
    · rw [resetRegisters, bind_of_ok ha]
      exact ih _

theorem mem_requestsLeft (w : Withdrawal) (l : List Request) (q : Request) :
    q ∈ requestsLeft w l ↔ q ∈ l ∧ match w with | .every => False | .only gone => q ∉ gone := by
  cases w <;> simp [requestsLeft]

/-- Withdrawing requests has no part in what the registers of the I/O page hold. -/
theorem withPending_ioHeld (s : State) (pending : List Request) (r : IoReg) :
    ({ s with pending := pending } : State).ioHeld r = s.ioHeld r := by cases r <;> rfl

theorem withPending_cell (s : State) (pending : List Request) (c : RegCell) :
    ({ s with pending := pending } : State).cell c = s.cell c := by cases c <;> rfl

/-- What RESET_EFFECT leaves, wherever it completes. -/
theorem resetDevices_ok (h : resetDevices s = .ok () t) : resetLeaves s t := by
  rw [resetDevices_apply] at h
  have hkept := resetRegisters_ok h
  refine ⟨fun q => ?pending, fun r hr => ?unlisted, fun r keep value hmem honce => ?listed, fun c _ => ?cells, hkept.pc,
    fun a => ?memory, hkept.sr, hkept.switchMoves, hkept.run, hkept.traceInhibit, hkept.yellowPending, hkept.ia, hkept.trapTaken,
    hkept.cfg⟩
  case pending =>
    rw [hkept.pending]
    exact mem_requestsLeft _ _ q
  case unlisted => rw [hkept.unlisted r hr, withPending_ioHeld]
  case listed => rw [resetRegisters_listed h hmem honce, withPending_ioHeld]
  case cells => rw [hkept.cells c, withPending_cell]
  case memory => rw [State.byteAt, hkept.mem, State.byteAt]

/-- The default RESET_EFFECT withdraws no request and names no register (40 R146). -/
theorem resetDevices_none (h : s.cfg.resetEffect = .none) : resetDevices s = .ok () s := by
  have hleft : requestsLeft (.only []) s.pending = s.pending := by simp [requestsLeft]
  rw [resetDevices_apply, h]
  simp only [ResetEffect.none, hleft]
  rfl

/-- RESET_EFFECT completes, or a reserved mode is refused; it raises no exception (10 R26). -/
theorem resetDevices_cases (s : State) :
    (∃ t, resetDevices s = .ok () t) ∨ ∃ t, resetDevices s = .error (.refusal .reservedMode) t := by
  rw [resetDevices_apply]
  exact resetRegisters_cases _ _

theorem resetDevices_completes (h : ∀ a ∈ s.cfg.resetEffect.registers, a.reg ≠ .psw) : ∃ t, resetDevices s = .ok () t := by
  rw [resetDevices_apply]
  exact resetRegisters_completes h _

/-- A single load of the PSW is made or refused by the mode fields of the word it comes to (10 R26). -/
theorem resetDevices_psw {keep value : Word} (h : s.cfg.resetEffect.registers = [⟨.psw, .load keep value⟩]) :
    (pswWritable (pswRead s.psw &&& keep ||| value) = true → ∃ t, resetDevices s = .ok () t) ∧
      (pswWritable (pswRead s.psw &&& keep ||| value) = false → ∃ t, resetDevices s = .error (.refusal .reservedMode) t) := by
  obtain ⟨v, k, hv, hload⟩ := resetRegister_cases ⟨.psw, .load keep value⟩
    { s with pending := requestsLeft s.cfg.resetEffect.withdraw s.pending }
  have hword : v = (pswRead s.psw &&& keep ||| value) := hv keep value rfl
  rw [resetDevices_apply, h, ← hword]
  refine ⟨fun hw => ?legal, fun hw => ?reserved⟩
  case legal =>
    rw [if_neg (by simp [hw])] at hload
    exact ⟨_, (bind_of_ok hload).trans (pure_apply () _)⟩
  case reserved =>
    rw [if_pos ⟨rfl, hw⟩] at hload
    exact ⟨_, bind_of_error hload⟩

/-! ## The instruction `reset` (40 R146) -/

theorem exec_reset_user (hmode : s.mode = .user) : exec .reset s = .next s :=
  runInstr_of_ok (by rw [bind_of_ok (currentMode_apply s), hmode]; rfl)

theorem exec_reset_kernel (hmode : s.mode = .kernel) : exec .reset s = runInstr resetDevices s := by
  change execReset s = _
  rw [execReset, runInstr, runInstr, bind_of_ok (currentMode_apply s), hmode]

/-- A next state of `reset` in kernel mode is one that RESET_EFFECT completes in: it raises no exception. -/
theorem resetDevices_ok_of_next (hmode : s.mode = .kernel) (h : exec .reset s = .next t) : resetDevices s = .ok () t := by
  rw [exec_reset_kernel hmode] at h
  rcases resetDevices_cases s with ⟨u, hu⟩ | ⟨u, hu⟩
  · rw [runInstr_of_ok hu] at h
    cases h
    exact hu
  · rw [runInstr_of_refusal hu] at h
    cases h

end

end Sys2Proof.Machine
end

section
/-! The statements about special instructions that are settled (40_traps_special.md). -/

namespace Sys2Proof.Proofs

open Sys2Proof.Machine

/-- Settles O35: the two pops keep the PSW, so the mode in which the popped word is loaded is the mode of `s`. -/
theorem returnsFromTrap : Obligations.ReturnsFromTrap := by
  intro s s1 s2 newPc popped hpc hps
  have hkept := returnPops_readsOnly hpc hps
  have hreturn := returnFromTrap_of_pops hpc hps
  refine ⟨fun hmode hw => ?legal, fun hmode hw => ?reserved, fun hmode => ?user⟩
  case legal =>
    rw [loadReturnPsw_kernel (hkept.mode.trans hmode), if_pos hw] at hreturn
    exact exec_returns_of_ok hreturn
  case reserved =>
    rw [loadReturnPsw_kernel (hkept.mode.trans hmode), if_neg (by simp [hw])] at hreturn
    exact exec_returns_of_refusal hreturn
  case user =>
    rw [loadReturnPsw_user (hkept.mode.trans hmode), hkept.psw] at hreturn
    exact exec_returns_of_ok hreturn

/-- Settles O33. -/
theorem haltAndWait : Obligations.HaltAndWait := fun s =>
  ⟨exec_halt_kernel, fun hmode => trapsAt_of_raise (exec_halt_user hmode) nofun, exec_wait s⟩

/-- Settles O34: user mode by itself; in kernel mode by how RESET_EFFECT ends. -/
theorem resetInstruction : Obligations.ResetInstruction := by
  intro s
  refine ⟨exec_reset_user, fun hnone => ?default, fun hmode hpsw => ?completes,
    fun hmode t ht => resetDevices_ok (resetDevices_ok_of_next hmode ht), fun hmode keep value hone => ?psw⟩
  case default =>
    cases hmode : s.mode with
    | user => exact exec_reset_user hmode
    | kernel => exact (exec_reset_kernel hmode).trans (runInstr_of_ok (resetDevices_none hnone))
  case completes =>
    obtain ⟨t, ht⟩ := resetDevices_completes hpsw
    exact ⟨t, (exec_reset_kernel hmode).trans (runInstr_of_ok ht), resetDevices_ok ht⟩
  case psw =>
    obtain ⟨hlegal, hreserved⟩ := resetDevices_psw hone
    rw [exec_reset_kernel hmode]
    split <;> rename_i hw
    · exact (hlegal hw).imp fun t ht => runInstr_of_ok ht
    · obtain ⟨t, ht⟩ := hreserved (Bool.eq_false_of_not_eq_true hw)
      exact runInstr_of_refusal ht

end Sys2Proof.Proofs
end

section
/-! SUPPORT. What the single-operand instructions compute, in the words of their rules (41 R153 to R177): at every width, with the top
bit for the sign; and what `mfpi` and `mtpi` do with the previous mode's stack pointer and space (41 R178, R179). -/

namespace Sys2Proof.Machine

/-! ## Results that are zero, or the least number -/

section
variable {w : Nat}

theorem not_beq_zero (d : BitVec w) : (~~~d == 0) = (d == BitVec.allOnes w) :=
  beq_eq_beq.mpr ⟨fun h => by rw [← BitVec.not_not (b := d), h]; exact BitVec.not_zero, fun h => h ▸ BitVec.not_allOnes⟩

theorem add_one_beq_zero (d : BitVec w) : (d + 1 == 0) = (d == BitVec.allOnes w) :=
  beq_eq_beq.mpr (by rw [← BitVec.neg_one_eq_allOnes]; exact add_eq_zero_iff_eq_neg)

theorem sub_one_beq_zero (d : BitVec w) : (d - 1 == 0) = (d == 1) := beq_eq_beq.mpr sub_eq_zero

theorem neg_beq_zero (d : BitVec w) : (-d == 0) = (d == 0) := beq_eq_beq.mpr BitVec.neg_eq_zero_iff

theorem neg_beq_intMin (d : BitVec w) : (-d == BitVec.intMin w) = (d == BitVec.intMin w) :=
  beq_eq_beq.mpr (by rw [BitVec.neg_eq_iff_eq_neg, BitVec.neg_intMin])

theorem or_beq_zero (x y : BitVec w) : (x ||| y == 0) = (y == 0 && x == 0) := by
  rw [Bool.eq_iff_iff, Bool.and_eq_true, beq_iff_eq, beq_iff_eq, beq_iff_eq, and_comm]
  exact BitVec.or_eq_zero_iff

end

/-! ## The carry that enters -/

section
variable {w : Nat}

theorem add_carryIn (d : BitVec w) (c : Bool) : d + carryIn w c = if c then d + 1 else d := by
  cases c with
  | true => rfl
  | false => exact BitVec.add_zero d

theorem sub_carryIn (d : BitVec w) (c : Bool) : d - carryIn w c = if c then d - 1 else d := by
  cases c with
  | true => rfl
  | false => exact BitVec.sub_zero d

/-- The carry entering at the top is the new sign (41 R170). -/
theorem msb_rotateRight (hw : 0 < w) (d : BitVec w) (c : Bool) : (d >>> 1 ||| if c then BitVec.intMin w else 0).msb = c := by
  rw [BitVec.msb_or, BitVec.msb_ushiftRight]
  cases c <;> simp [BitVec.msb_intMin, hw]

theorem topCarry_beq_zero (hw : 0 < w) (c : Bool) : ((if c then BitVec.intMin w else 0) == 0) = !c := by
  cases c with
  | false => exact beq_self_eq_true _
  | true => exact beq_eq_false_iff_ne.mpr fun h => hw.ne' (BitVec.intMin_eq_zero_iff.mp h)

theorem carryIn_beq_zero (hw : 0 < w) (c : Bool) : (carryIn w c == 0) = !c := by
  cases c with
  | false => exact beq_self_eq_true _
  | true => exact beq_eq_false_iff_ne.mpr fun h => hw.ne' (BitVec.one_eq_zero_iff.mp h)

/-- The carry entering at the bottom leaves the sign alone (41 R172). -/
theorem msb_carryIn (hw : 1 < w) (c : Bool) : (carryIn w c).msb = false := by
  cases c with
  | false => exact BitVec.msb_zero
  | true => exact BitVec.msb_one.trans (decide_eq_false hw.ne')

theorem shiftLeft_one_eq_add (d : BitVec w) : d <<< 1 = d + d := by
  apply BitVec.eq_of_toNat_eq
  rw [BitVec.toNat_shiftLeft, BitVec.toNat_add, Nat.shiftLeft_eq, pow_one, Nat.mul_two]

/-- A shift to the right by one place that keeps the sign halves, rounding down (41 R174). -/
theorem sshiftRight_one (d : BitVec w) : d.sshiftRight 1 = BitVec.ofInt w (d.toInt.fdiv 2) := by
  rw [BitVec.sshiftRight_eq, Int.shiftRight_eq_div_pow, Int.fdiv_eq_ediv_of_nonneg _ (by decide)]
  rfl

theorem sshiftRight_one_beq_zero (d : BitVec w) : (d.sshiftRight 1 == 0) = (d.toInt.fdiv 2 == 0) :=
  beq_eq_beq.mpr (by
    rw [← BitVec.toInt_inj, BitVec.toInt_sshiftRight, Int.shiftRight_eq_div_pow, Int.fdiv_eq_ediv_of_nonneg _ (by decide)]
    exact Iff.of_eq (congrArg _ BitVec.toInt_zero))

end

/-! ## Exchanging the bytes of a word (41 R153) -/

theorem wordOf_swapped (d : Word) : wordOf (lowByte d) (highByte d) = d.rotateLeft 8 := by
  apply BitVec.eq_of_getLsbD_eq
  intro i hi
  rw [getLsbD_wordOf, lowByte, highByte, BitVec.getLsbD_extractLsb', BitVec.getLsbD_extractLsb', BitVec.getLsbD_rotateLeft]
  by_cases h : i < 8
  · simp [h]
  · simp [h, hi, show i - 8 < 8 by omega]

theorem msb_highByte (d : Word) : (highByte d).msb = d.msb := by
  rw [BitVec.msb_eq_getLsbD_last, BitVec.msb_eq_getLsbD_last, highByte, BitVec.getLsbD_extractLsb']
  rfl

/-! ## Result and condition codes (41 R153 to R177) -/

theorem swabOp_eq (old : Flags) (d : Word) :
    swabOp old d = (d.rotateLeft 8, ⟨d.msb, highByte d == 0, false, false⟩) := by
  rw [swabOp, lowByte_wordOf, wordOf_swapped, msb_highByte]

section
variable {w : Nat} (old : Flags) (d : BitVec w)

theorem comOp_eq (hw : 0 < w) : comOp old d = (~~~d, ⟨!d.msb, d == BitVec.allOnes w, false, true⟩) := by
  rw [comOp, BitVec.msb_not, decide_eq_true hw, Bool.true_and, not_beq_zero]

theorem incOp_eq : incOp old d = (d + 1, ⟨(d + 1).msb, d == BitVec.allOnes w, d == BitVec.intMax w, old.c⟩) := by
  rw [incOp, add_one_beq_zero]

theorem decOp_eq : decOp old d = (d - 1, ⟨(d - 1).msb, d == 1, d == BitVec.intMin w, old.c⟩) := by
  rw [decOp, sub_one_beq_zero]

theorem negOp_eq : negOp old d = (-d, ⟨(-d).msb, d == 0, d == BitVec.intMin w, d != 0⟩) := by
  simp only [negOp, zero_sub, bne, neg_beq_zero, neg_beq_intMin]

theorem adcOp_eq : adcOp old d = (if old.c then d + 1 else d, ⟨(if old.c then d + 1 else d).msb, (if old.c then d + 1 else d) == 0,
    old.c && d == BitVec.intMax w, old.c && d == BitVec.allOnes w⟩) := by
  rw [adcOp, add_carryIn, Bool.and_comm, Bool.and_comm _ old.c]

theorem sbcOp_eq : sbcOp old d = (if old.c then d - 1 else d, ⟨(if old.c then d - 1 else d).msb, (if old.c then d - 1 else d) == 0,
    old.c && d == BitVec.intMin w, old.c && d == 0⟩) := by
  rw [sbcOp, sub_carryIn, Bool.and_comm, Bool.and_comm _ old.c]

theorem rorOp_eq (hw : 0 < w) : rorOp old d = (d >>> 1 ||| (if old.c then BitVec.intMin w else 0),
    ⟨old.c, !old.c && d >>> 1 == 0, old.c != d.getLsbD 0, d.getLsbD 0⟩) := by
  rw [rorOp, shiftFlags, msb_rotateRight hw, or_beq_zero, topCarry_beq_zero hw]

theorem rolOp_eq (hw : 1 < w) : rolOp old d = (d <<< 1 ||| (if old.c then 1 else 0),
    ⟨d.getMsbD 1, !old.c && d <<< 1 == 0, d.getMsbD 1 != d.msb, d.msb⟩) := by
  rw [rolOp, shiftFlags, BitVec.msb_or, BitVec.msb_shiftLeft, msb_carryIn hw, Bool.or_false, or_beq_zero,
    carryIn_beq_zero (Nat.zero_lt_of_lt hw)]
  rfl

theorem asrOp_eq : asrOp old d = (BitVec.ofInt w (d.toInt.fdiv 2),
    ⟨d.msb, d.toInt.fdiv 2 == 0, d.msb != d.getLsbD 0, d.getLsbD 0⟩) := by
  rw [asrOp, shiftFlags, BitVec.msb_sshiftRight, sshiftRight_one_beq_zero, sshiftRight_one]

theorem aslOp_eq : aslOp old d = (d + d, ⟨d.getMsbD 1, d + d == 0, d.getMsbD 1 != d.msb, d.msb⟩) := by
  rw [aslOp, shiftFlags, BitVec.msb_shiftLeft, shiftLeft_one_eq_add]

end

/-! ## Instructions of one shape -/

theorem updatesWord_of_rmw {i : Instr} {dd : Operand} {op : Flags → Word → Word × Flags} {result : Flags → Word → Word}
    {codes : Flags → Word → Flags} (hexec : ∀ s, exec i s = runInstr (rmwWord op dd) s)
    (hop : ∀ old d, op old d = (result old d, codes old d)) : UpdatesWord i dd result codes := by
  intro s s1 s2 s3 loc d hit hloc hload hstore
  have hrun := rmwWord_of_ok (op := op) hloc hload (by rw [hop]; exact hstore)
  rw [hop] at hrun
  exact (hexec s).trans (runInstr_of_ok hrun)

theorem updatesByte_of_rmw {i : Instr} {dd : Operand} {op : Flags → Byte → Byte × Flags} {result : Flags → Byte → Byte}
    {codes : Flags → Byte → Flags} (hexec : ∀ s, exec i s = runInstr (rmwByte op dd) s)
    (hop : ∀ old d, op old d = (result old d, codes old d)) : UpdatesByte i dd result codes := by
  intro s s1 s2 s3 loc d hit hloc hload hstore
  have hrun := rmwByte_of_ok (op := op) hloc hload (by rw [hop]; exact hstore)
  rw [hop] at hrun
  exact (hexec s).trans (runInstr_of_ok hrun)

/-! ## The previous mode's stack pointer and space (41 R178, R179, 20 R81) -/

section
variable {s s1 s2 s3 : State} {o : Operand} {loc : Loc} {v : Word}

theorem loadPrevious_sp (s : State) : loadPrevious (.reg .sp) s = .ok (s.stackPointer s.prevMode) s := rfl

theorem loadPrevious_reg {r : Reg} (hr : r ≠ .sp) (s : State) : loadPrevious (.reg r) s = .ok (s.reg r) s := by
  cases r with
  | sp => exact absurd rfl hr
  | _ => rfl

theorem loadPrevious_mem (ea : Word) (pushed : Bool) (s : State) :
    loadPrevious (.mem ea pushed) s = memReadWordIn s.prevMode ea s := rfl

theorem storePrevious_sp (v : Word) (s : State) :
    storePrevious (.reg .sp) v s = .ok false (s.setStackPointer s.prevMode v) := rfl

theorem storePrevious_reg {r : Reg} (hr : r ≠ .sp) (v : Word) (s : State) :
    storePrevious (.reg r) v s = .ok false (s.setReg r v) := by
  cases r with
  | sp => exact absurd rfl hr
  | _ => rfl

theorem storePrevious_mem (ea : Word) (pushed : Bool) (v : Word) (s : State) :
    storePrevious (.mem ea pushed) v s = storeWordIn s.prevMode (.mem ea pushed) v s := rfl

theorem stackPointer_eq_ite (s : State) (mode : Mode) : s.stackPointer mode = if mode = .kernel then s.ksp else s.usp := by
  cases mode <;> rfl

theorem setStackPointer_eq_ite (s : State) (mode : Mode) (v : Word) :
    s.setStackPointer mode v = if mode = .kernel then { s with ksp := v } else { s with usp := v } := by
  cases mode <;> rfl

theorem exec_mfpi_of_ok (hloc : operand .word o s = .ok loc s1) (hload : loadPrevious loc s1 = .ok v s2) (hpush : push v s2 = .ok () s3) :
    exec (.mfpi o) s = .next (s3.setFlags (logicFlags s3.flags v)) :=
  runInstr_of_ok (by
    rw [bind_of_ok hloc, bind_of_ok hload, bind_of_ok hpush, bind_of_ok (readFlags_apply s3), writeFlags_apply])

theorem exec_mtpi_of_ok {hit : Bool} (hpop : pop s = .ok v s1) (hloc : operand .word o s1 = .ok loc s2)
    (hstore : storePrevious loc v s2 = .ok hit s3) :
    exec (.mtpi o) s = .next (afterCodes hit s3 (logicFlags s3.flags v)) :=
  runInstr_of_ok (by
    rw [bind_of_ok hpop, bind_of_ok hloc, bind_of_ok hstore, bind_of_ok (readFlags_apply s3), assignFlags_apply]
    rfl)

end

end Sys2Proof.Machine
end

section
/-! The statements about single-operand instructions that are settled (41_cc_single_operand.md). -/

namespace Sys2Proof.Proofs

open Sys2Proof.Machine

/-- Settles O37: `swab`, then the ten that words and bytes share. -/
theorem wordUpdates : Obligations.WordUpdates := fun _ =>
  ⟨updatesWord_of_rmw (fun _ => rfl) swabOp_eq,
    updatesWord_of_rmw (fun _ => rfl) fun old d => comOp_eq old d (by decide),
    updatesWord_of_rmw (fun _ => rfl) incOp_eq,
    updatesWord_of_rmw (fun _ => rfl) decOp_eq,
    updatesWord_of_rmw (fun _ => rfl) negOp_eq,
    updatesWord_of_rmw (fun _ => rfl) adcOp_eq,
    updatesWord_of_rmw (fun _ => rfl) sbcOp_eq,
    updatesWord_of_rmw (fun _ => rfl) fun old d => rorOp_eq old d (by decide),
    updatesWord_of_rmw (fun _ => rfl) fun old d => rolOp_eq old d (by decide),
    updatesWord_of_rmw (fun _ => rfl) asrOp_eq,
    updatesWord_of_rmw (fun _ => rfl) aslOp_eq⟩

/-- Settles O38. -/
theorem byteUpdates : Obligations.ByteUpdates := fun _ =>
  ⟨updatesByte_of_rmw (fun _ => rfl) fun old d => comOp_eq old d (by decide),
    updatesByte_of_rmw (fun _ => rfl) incOp_eq,
    updatesByte_of_rmw (fun _ => rfl) decOp_eq,
    updatesByte_of_rmw (fun _ => rfl) negOp_eq,
    updatesByte_of_rmw (fun _ => rfl) adcOp_eq,
    updatesByte_of_rmw (fun _ => rfl) sbcOp_eq,
    updatesByte_of_rmw (fun _ => rfl) fun old d => rorOp_eq old d (by decide),
    updatesByte_of_rmw (fun _ => rfl) fun old d => rolOp_eq old d (by decide),
    updatesByte_of_rmw (fun _ => rfl) asrOp_eq,
    updatesByte_of_rmw (fun _ => rfl) aslOp_eq⟩

/-- Settles O39. -/
theorem clearAndSignExtend : Obligations.ClearAndSignExtend := by
  intro dd s s1 s2 loc hit
  refine ⟨fun hloc hstore => ?clr, fun hloc hstore => ?clrb, fun hloc hstore => ?sxt⟩
  case clr => exact runInstr_of_ok (putWordTo_of_ok (op := clrOp) hloc hstore)
  case clrb => exact runInstr_of_ok (putByteTo_of_ok (op := clrOp) hloc hstore)
  case sxt => exact runInstr_of_ok (putWordTo_of_ok (op := sxtOp) hloc hstore)

/-- Settles O40. -/
theorem tests : Obligations.Tests := fun _ _ _ _ _ =>
  ⟨fun _ hloc hload => runInstr_of_ok (testWord_of_ok (op := tstOp) hloc hload),
    fun _ hloc hload => runInstr_of_ok (testByte_of_ok (op := tstOp) hloc hload)⟩

/-- Settles O41: by the location of the operand. -/
theorem moveFromPrevious : Obligations.MoveFromPrevious := by
  intro ss s s1 s2 s3 loc v hloc hvalue hpush
  have hload : loadPrevious loc s1 = .ok v s2 := by
    split at hvalue
    · obtain ⟨rfl, rfl⟩ := hvalue
      rw [loadPrevious_sp, stackPointer_eq_ite]
    · next hr =>
      obtain ⟨rfl, rfl⟩ := hvalue
      exact loadPrevious_reg hr _
    · exact hvalue
  exact exec_mfpi_of_ok hloc hload hpush

/-- Settles O42: by the location of the destination. -/
theorem moveToPrevious : Obligations.MoveToPrevious := by
  intro dd s s1 s2 s3 loc v hit hpop hloc hleft
  have hstore : storePrevious loc v s2 = .ok hit s3 := by
    split at hleft
    · obtain ⟨rfl, rfl⟩ := hleft
      rw [storePrevious_sp, setStackPointer_eq_ite]
    · next hr =>
      obtain ⟨rfl, rfl⟩ := hleft
      exact storePrevious_reg hr _ _
    · exact hleft
  exact exec_mtpi_of_ok hpop hloc hstore

end Sys2Proof.Proofs
end

section
/-! SUPPORT. What the two-operand instructions compute, in the words of their rules (42 R193 to R207): at every width, with the top bit
for the sign and the overflow told from the exact value; and how instructions of one shape end. -/

namespace Sys2Proof.Machine

/-! ## Values that do not fit -/

/-- The exact value `i` is no signed number of width `w`. -/
abbrev Exceeds (w : Nat) (i : Int) : Prop := i < -2 ^ (w - 1) ∨ 2 ^ (w - 1) - 1 < i

section
variable {w : Nat}

theorem exceeds_iff (i : Int) : Exceeds w i ↔ i < -2 ^ (w - 1) ∨ i ≥ 2 ^ (w - 1) := or_congr_right Int.sub_one_lt_iff

/-- A value fits exactly where taking it into the width and back gives it again. -/
theorem toInt_ofInt_ne_iff (hw : 0 < w) (i : Int) : (BitVec.ofInt w i).toInt ≠ i ↔ Exceeds w i := by
  constructor
  · intro hne
    by_contra hfits
    rw [Exceeds, not_or, not_lt, not_lt, Int.le_sub_one_iff] at hfits
    exact hne (BitVec.toInt_ofInt_eq_self hw hfits.1 hfits.2)
  · intro hexceeds heq
    have hlow := BitVec.le_toInt (BitVec.ofInt w i)
    have hhigh := BitVec.toInt_lt (x := BitVec.ofInt w i)
    rw [heq] at hlow hhigh
    rcases (exceeds_iff i).mp hexceeds with h | h <;> omega

theorem saddOverflow_eq_exceeds (x y : BitVec w) : x.saddOverflow y = decide (Exceeds w (x.toInt + y.toInt)) := by
  rw [BitVec.saddOverflow, Bool.or_comm, decide_eq_decide.mpr (exceeds_iff _), Bool.decide_or]

theorem ssubOverflow_eq_exceeds (x y : BitVec w) : x.ssubOverflow y = decide (Exceeds w (x.toInt - y.toInt)) := by
  rw [BitVec.ssubOverflow, Bool.or_comm, decide_eq_decide.mpr (exceeds_iff _), Bool.decide_or]

end

/-! ## Result and condition codes (42 R193 to R207) -/

section
variable {w : Nat} (old : Flags) (x y : BitVec w)

theorem sub_beq_zero : (x - y == 0) = (x == y) := beq_eq_beq.mpr sub_eq_zero

theorem xor_beq_zero : (x ^^^ y == 0) = (x == y) := beq_eq_beq.mpr BitVec.xor_eq_zero_iff

/-- A difference overflows where the signs differ and the result has the sign of the subtrahend (42 R193). -/
theorem subFlags_eq : subFlags x y =
    ⟨(x - y).msb, x == y, decide (Exceeds w (x.toInt - y.toInt)), decide (x.toNat < y.toNat)⟩ := by
  have hv : (x.msb != y.msb && (x - y).msb == y.msb) = decide (Exceeds w (x.toInt - y.toInt)) := by
    rw [← ssubOverflow_eq_exceeds, BitVec.ssubOverflow_eq]
    cases x.msb <;> cases y.msb <;> cases (x - y).msb <;> rfl
  rw [subFlags, hv, sub_beq_zero]
  rfl

theorem cmpOp_eq : cmpOp old x y =
    ⟨(x - y).msb, x == y, decide (Exceeds w (x.toInt - y.toInt)), decide (x.toNat < y.toNat)⟩ := subFlags_eq x y

theorem subOp_eq : subOp old x y = (y - x,
    ⟨(y - x).msb, y == x, decide (Exceeds w (y.toInt - x.toInt)), decide (y.toNat < x.toNat)⟩) := by rw [subOp, subFlags_eq]

/-- A sum overflows where the signs agree and the result has the other (42 R201). -/
theorem addOp_eq : addOp old x y = (y + x,
    ⟨(y + x).msb, y + x == 0, decide (Exceeds w (y.toInt + x.toInt)), decide (2 ^ w ≤ y.toNat + x.toNat)⟩) := by
  have hv : (y.msb == x.msb && (y + x).msb != y.msb) = decide (Exceeds w (y.toInt + x.toInt)) := by
    rw [← saddOverflow_eq_exceeds, BitVec.saddOverflow_eq]
    rfl
  rw [addOp, hv]

theorem xorOp_eq : xorOp old x y = (y ^^^ x, ⟨(y ^^^ x).msb, y == x, false, old.c⟩) := by
  rw [xorOp, logicFlags, xor_beq_zero]

end

/-! ## Instructions of one shape -/

/-- Pseudocode whose first part succeeds goes on from the state that part leaves. -/
theorem runInstr_bind_of_ok {α : Type} {body : Action α} {rest : α → Action Unit} {s s' : State} {a : α} (h : body s = .ok a s') :
    runInstr (body >>= rest) s = runInstr (rest a) s' := by rw [runInstr, runInstr, bind_of_ok h]

section
variable {i : Instr} {ss dd : Operand}

theorem combinesWord_of_combine {op : Flags → Word → Word → Word × Flags} {result : Word → Word → Word}
    {codes : Flags → Word → Word → Flags} (hexec : ∀ s, exec i s = runInstr (combineWord op ss dd) s)
    (hop : ∀ old x d, op old x d = (result x d, codes old x d)) : CombinesWord i ss dd result codes := by
  intro s s1 s2 s3 s4 s5 locS locD x d hit hsource hx hdest hd hstore
  have hrun := rmwWord_of_ok (op := fun old d => op old x d) hdest hd (by rw [hop]; exact hstore)
  rw [hop] at hrun
  rw [hexec, combineWord, runInstr_bind_of_ok (sourceWord_of_ok hsource hx)]
  exact runInstr_of_ok hrun

theorem combinesByte_of_combine {op : Flags → Byte → Byte → Byte × Flags} {result : Byte → Byte → Byte}
    {codes : Flags → Byte → Byte → Flags} (hexec : ∀ s, exec i s = runInstr (combineByte op ss dd) s)
    (hop : ∀ old x d, op old x d = (result x d, codes old x d)) : CombinesByte i ss dd result codes := by
  intro s s1 s2 s3 s4 s5 locS locD x d hit hsource hx hdest hd hstore
  have hrun := rmwByte_of_ok (op := fun old d => op old x d) hdest hd (by rw [hop]; exact hstore)
  rw [hop] at hrun
  rw [hexec, combineByte, runInstr_bind_of_ok (sourceByte_of_ok hsource hx)]
  exact runInstr_of_ok hrun

theorem comparesWord_of_compare {op codes : Flags → Word → Word → Flags}
    (hexec : ∀ s, exec i s = runInstr (compareWord op ss dd) s) (hop : ∀ old x d, op old x d = codes old x d) :
    ComparesWord i ss dd codes := by
  intro s s1 s2 s3 s4 locS locD x d hsource hx hdest hd
  rw [hexec, compareWord, runInstr_bind_of_ok (sourceWord_of_ok hsource hx), ← hop]
  exact runInstr_of_ok (testWord_of_ok (op := fun old d => op old x d) hdest hd)

theorem comparesByte_of_compare {op codes : Flags → Byte → Byte → Flags}
    (hexec : ∀ s, exec i s = runInstr (compareByte op ss dd) s) (hop : ∀ old x d, op old x d = codes old x d) :
    ComparesByte i ss dd codes := by
  intro s s1 s2 s3 s4 locS locD x d hsource hx hdest hd
  rw [hexec, compareByte, runInstr_bind_of_ok (sourceByte_of_ok hsource hx), ← hop]
  exact runInstr_of_ok (testByte_of_ok (op := fun old d => op old x d) hdest hd)

end

/-! ## `movb` and `xor` (42 R192, R207) -/

theorem putMovb_of_ok {dd : Operand} {v : Byte} {s s1 s2 : State} {loc : Loc} {hit : Bool} (hloc : operand .byte dd s = .ok loc s1)
    (hstore : storeByteAs .signExtendAll loc v s1 = .ok hit s2) :
    putMovb dd v s = .ok () (s2.codesAfter hit (logicFlags s1.flags v)) := by
  rw [putMovb, bind_of_ok hloc, bind_of_ok (readFlags_apply s1), bind_of_ok hstore, assignFlags_apply]
  rfl

/-- The pseudocode of `xor`. -/
def xorWith (r : Reg) (dd : Operand) : Action Unit := do
  let loc ← operand .word dd
  let d ← loadWord loc
  let x ← readReg r
  let old ← readFlags
  let hit ← storeWord loc (xorOp old x d).1
  assignFlags hit (xorOp old x d).2

theorem exec_xor (r : Reg) (dd : Operand) (s : State) : exec (.xor r dd) s = runInstr (xorWith r dd) s := rfl

theorem xorWith_of_ok {r : Reg} {dd : Operand} {s s1 s2 s3 : State} {loc : Loc} {d : Word} {hit : Bool}
    (hloc : operand .word dd s = .ok loc s1) (hload : loadWord loc s1 = .ok d s2)
    (hstore : storeWord loc (xorOp s2.flags (s2.reg r) d).1 s2 = .ok hit s3) :
    xorWith r dd s = .ok () (s3.codesAfter hit (xorOp s2.flags (s2.reg r) d).2) := by
  rw [xorWith, bind_of_ok hloc, bind_of_ok hload, bind_of_ok (readReg_apply r s2), bind_of_ok (readFlags_apply s2), bind_of_ok hstore,
    assignFlags_apply]
  rfl

end Sys2Proof.Machine
end

section
/-! The statements about two-operand instructions that are settled (42_double_operand_eis.md). -/

namespace Sys2Proof.Proofs

open Sys2Proof.Machine

/-- Settles O43: `movb` by its destination, since its store to a register is not that of the other byte instructions. -/
theorem moves : Obligations.Moves := by
  intro ss dd s s1 s2 s3 s4 locS locD hit
  refine ⟨fun x hsource hx hdest hstore => ?mov, fun x hsource hx hdest hstored => ?movb⟩
  case mov =>
    refine (runInstr_bind_of_ok (sourceWord_of_ok hsource hx)).trans (runInstr_of_ok ?_)
    exact putWordTo_of_ok (op := fun old => (x, logicFlags old x)) hdest hstore
  case movb =>
    have hstore : storeByteAs .signExtendAll locD x s3 = .ok hit s4 := by
      cases locD with
      | reg r =>
        obtain ⟨rfl, rfl⟩ := hstored
        exact storeByteAs_reg ..
      | mem ea pushed => exact hstored
    exact (runInstr_bind_of_ok (sourceByte_of_ok hsource hx)).trans (runInstr_of_ok (putMovb_of_ok hdest hstore))

/-- Settles O44. -/
theorem comparisons : Obligations.Comparisons := fun _ _ =>
  ⟨comparesWord_of_compare (fun _ => rfl) cmpOp_eq,
    comparesByte_of_compare (fun _ => rfl) cmpOp_eq,
    comparesWord_of_compare (fun _ => rfl) fun _ _ _ => rfl,
    comparesByte_of_compare (fun _ => rfl) fun _ _ _ => rfl⟩

/-- Settles O45. -/
theorem twoOperandUpdates : Obligations.TwoOperandUpdates := fun _ _ =>
  ⟨combinesWord_of_combine (fun _ => rfl) fun _ _ _ => rfl,
    combinesByte_of_combine (fun _ => rfl) fun _ _ _ => rfl,
    combinesWord_of_combine (fun _ => rfl) fun _ _ _ => rfl,
    combinesByte_of_combine (fun _ => rfl) fun _ _ _ => rfl,
    combinesWord_of_combine (fun _ => rfl) addOp_eq,
    combinesWord_of_combine (fun _ => rfl) subOp_eq⟩

/-- Settles O46. -/
theorem exclusiveOr : Obligations.ExclusiveOr := by
  intro r dd s s1 s2 s3 loc d hit hloc hload hstore
  have hrun := xorWith_of_ok hloc hload hstore
  rw [xorOp_eq] at hrun
  exact (exec_xor r dd s).trans (runInstr_of_ok hrun)

end Sys2Proof.Proofs
end

section
/-! SUPPORT. What the extended instruction set computes, in the words of its rules (42 R203 to R206): longs and their words, the exact
product, quotient and shift; and what is left to do once the source has been read. -/

namespace Sys2Proof.Machine

/-! ## Longs and their words (10 R39) -/

theorem longOf_eq_append (high low : Word) : longOf high low = high ++ low := by
  rw [longOf, BitVec.append_def, BitVec.shiftLeftZeroExtend_eq, BitVec.setWidth'_eq]

theorem toNat_longOf (high low : Word) : (longOf high low).toNat = high.toNat * 65536 + low.toNat := by
  rw [longOf_eq_append, BitVec.toNat_append, ← Nat.shiftLeft_add_eq_or_of_lt low.isLt, Nat.shiftLeft_eq]

/-- The high word carries the sign of the long. -/
theorem toInt_longOf (high low : Word) : (longOf high low).toInt = high.toInt * 65536 + low.toNat := by
  rw [longOf_eq_append, BitVec.toInt_append, if_neg (by decide), mul_comm]
  rfl

theorem longOf_eq_sum (high low : Word) : longOf high low = high.setWidth 32 * 65536 + low.setWidth 32 := by
  apply BitVec.eq_of_toNat_eq
  rw [toNat_longOf]
  bv_omega

theorem lowWord_ofInt (p : Int) : lowWord (BitVec.ofInt 32 p) = BitVec.ofInt 16 p := by
  apply BitVec.eq_of_toNat_eq
  rw [lowWord, BitVec.extractLsb'_toNat, BitVec.toNat_ofInt, BitVec.toNat_ofInt, Nat.shiftRight_zero]
  omega

theorem highWord_ofInt (p : Int) : highWord (BitVec.ofInt 32 p) = BitVec.ofInt 16 (p.fdiv 65536) := by
  apply BitVec.eq_of_toNat_eq
  rw [highWord, BitVec.extractLsb'_toNat, BitVec.toNat_ofInt, BitVec.toNat_ofInt, Nat.shiftRight_eq_div_pow,
    Int.fdiv_eq_ediv_of_nonneg _ (by decide)]
  omega

@[simp] theorem readPair_apply (r : Reg) (s : State) : readPair r s = .ok (longOf (s.reg r) (s.reg (regPair r))) s := rfl

/-- A register pair takes a long, high word first (10 R39). -/
def State.setPair (s : State) (r : Reg) (v : Long) : State := (s.setReg r (highWord v)).setReg (regPair r) (lowWord v)

@[simp] theorem writePair_apply (r : Reg) (v : Long) (s : State) : writePair r v s = .ok () (s.setPair r v) := rfl

/-! ## The quotient toward zero (42 R204) -/

/-- The division law has one solution: `m` smaller than the divisor, and zero or of the dividend's sign. -/
theorem tdiv_eq_of_law {a b q m : Int} (hlaw : a = q * b + m) (hsmall : m.natAbs < b.natAbs) (hsign : m = 0 ∨ (m < 0 ↔ a < 0)) :
    a.tdiv b = q := by
  have hb : b ≠ 0 := by omega
  have hsum : m + b * q = a := by rw [hlaw, mul_comm, add_comm]
  rcases lt_or_ge a 0 with ha | ha
  · exact ((Int.tdiv_tmod_unique' ha.le hb).mpr ⟨hsum, by omega, by omega⟩).1
  · exact ((Int.tdiv_tmod_unique ha hb).mpr ⟨hsum, by omega, by omega⟩).1

/-- The quotient toward zero and what is left of the dividend satisfy the law. -/
theorem law_of_tdiv {a b : Int} (hb : b ≠ 0) : a = a.tdiv b * b + a.tmod b ∧ (a.tmod b).natAbs < b.natAbs ∧
    (a.tmod b = 0 ∨ (a.tmod b < 0 ↔ a < 0)) := by
  refine ⟨by rw [mul_comm, Int.mul_tdiv_add_tmod], ?_, ?_⟩
  · rw [Int.natAbs_tmod]
    exact Nat.mod_lt _ (Int.natAbs_pos.mpr hb)
  · have hsign := Int.sign_tmod a b
    split at hsign
    · exact .inl (Int.sign_eq_zero_iff_zero.mp hsign)
    · exact .inr (by rw [← Int.sign_neg_iff, hsign, Int.sign_neg_iff])

theorem toInt_longOf_neg_iff (high low : Word) : (longOf high low).toInt < 0 ↔ high.toInt < 0 := by
  rw [toInt_longOf]
  have := low.isLt
  omega

/-! ## Arithmetic shifts (42 R205, R206) -/

section
variable {w : Nat} (zeroC : Bool) (d : BitVec w) {k : Int}

theorem shiftOp_left (hw : 0 < w) (hk : 0 < k) : shiftOp zeroC d k = (BitVec.ofInt w (d.toInt * 2 ^ k.toNat),
    ⟨(BitVec.ofInt w (d.toInt * 2 ^ k.toNat)).msb, BitVec.ofInt w (d.toInt * 2 ^ k.toNat) == 0,
      decide (Exceeds w (d.toInt * 2 ^ k.toNat)), decide (k ≤ w) && d.getLsbD (w - k.toNat)⟩) := by
  have hc : (if k.toNat ≤ w then d.getLsbD (w - k.toNat) else false) = (decide (k ≤ w) && d.getLsbD (w - k.toNat)) := by
    rw [Bool.if_false_right, decide_eq_decide.mpr Int.toNat_le]
  rw [shiftOp, if_pos hk, shiftLeft, hc, decide_eq_decide.mpr (toInt_ofInt_ne_iff hw _)]

/-- Division by a power of two toward the smaller integer is the arithmetic shift (42 R205). -/
theorem sshiftRight_eq_fdiv (j : Nat) : d.sshiftRight j = BitVec.ofInt w (d.toInt.fdiv (2 ^ j)) := by
  rw [BitVec.sshiftRight_eq, Int.shiftRight_eq_div_pow, Int.fdiv_eq_ediv_of_nonneg _ (by positivity)]
  norm_cast

theorem sshiftRight_beq_zero (j : Nat) : (d.sshiftRight j == 0) = decide (d.toInt.fdiv (2 ^ j) = 0) := by
  rw [Bool.beq_eq_decide_eq, decide_eq_decide, ← BitVec.toInt_inj, BitVec.toInt_sshiftRight, Int.shiftRight_eq_div_pow,
    Int.fdiv_eq_ediv_of_nonneg _ (by positivity)]
  norm_cast
  exact Iff.of_eq (congrArg _ BitVec.toInt_zero)

theorem shiftOp_right (hk : k < 0) : shiftOp zeroC d k = (BitVec.ofInt w (d.toInt.fdiv (2 ^ (-k).toNat)),
    ⟨d.msb, decide (d.toInt.fdiv (2 ^ (-k).toNat) = 0), false,
      if (-k).toNat ≤ w then d.getLsbD ((-k).toNat - 1) else d.msb⟩) := by
  rw [shiftOp, if_neg hk.not_gt, if_pos hk, shiftRight, ← sshiftRight_eq_fdiv, BitVec.msb_sshiftRight, sshiftRight_beq_zero]

theorem shiftOp_zero (hk : k = 0) : shiftOp zeroC d k = (d, ⟨d.msb, d == 0, false, zeroC⟩) := by subst hk; rfl

end

/-- A count of six bits, signed (92 D43). -/
theorem shiftCount_bounds (x : Word) : -32 ≤ shiftCount x ∧ shiftCount x < 32 :=
  ⟨BitVec.le_toInt (x.extractLsb' 0 6), BitVec.toInt_lt (x := x.extractLsb' 0 6)⟩

/-- The carry after a count of zero is the parameter's, with a free value drawn for one of its values only (42 R205, logs 2, 4). -/
theorem zeroCarry_zero {k : Int} (hk : k = 0) (s : State) : ∃ c n, (s.cfg.ashZeroC = .clear → c = false ∧ n = s.draws) ∧
    (s.cfg.ashZeroC = .keep → c = s.flags.c ∧ n = s.draws) ∧ zeroCarry k s = .ok c { s with draws := n } := by
  cases h : s.cfg.ashZeroC with
  | clear => exact ⟨false, s.draws, fun _ => ⟨rfl, rfl⟩, nofun, by rw [zeroCarry, if_pos hk, h]⟩
  | keep => exact ⟨s.flags.c, s.draws, nofun, fun _ => ⟨rfl, rfl⟩, by rw [zeroCarry, if_pos hk, h]⟩
  | draw => exact ⟨_, _, nofun, nofun, by rw [zeroCarry, if_pos hk, h]; exact drawBit_apply s⟩

theorem zeroCarry_of_ne {k : Int} (hk : k ≠ 0) (s : State) : zeroCarry k s = .ok false s := if_neg hk

/-! ## What is left to do once the source has been read -/

/-- `mul` with the source `v` (42 R203). -/
def mulBy (r : Reg) (v : Word) : Action Unit := do
  let x ← readReg r
  if regOdd r then writeReg r (lowWord (mulLong v x)) else writePair r (mulLong v x)
  writeFlags (mulFlags v x)

/-- `div` with the source `v` (42 R204). -/
def divBy (r : Reg) (v : Word) : Action Unit :=
  if regOdd r then refuse .divOddRegister
  else do
    let dividend ← readPair r
    if v = 0 then divByZero
    else if divOverflows dividend v then divOverflow r
    else divResult r dividend v

/-- `ashc` with the source `v` (42 R206). -/
def shiftCombined (r : Reg) (v : Word) : Action Unit := if regOdd r then shiftRegister r v else shiftPair r v

section
variable (r : Reg) (ss : Operand) (s : State)

theorem exec_mul : exec (.mul r ss) s = runInstr (sourceWord ss >>= mulBy r) s := rfl

theorem exec_div : exec (.div r ss) s = runInstr (sourceWord ss >>= divBy r) s := rfl

theorem exec_ash : exec (.ash r ss) s = runInstr (sourceWord ss >>= shiftRegister r) s := rfl

theorem exec_ashc : exec (.ashc r ss) s = runInstr (sourceWord ss >>= shiftCombined r) s := rfl

end

section
variable {r : Reg} {v : Word} {s : State}

theorem mulBy_even (hr : regOdd r = false) : mulBy r v s =
    .ok () ((s.setPair r (mulLong v (s.reg r))).setFlags (mulFlags v (s.reg r))) := by
  rw [mulBy, bind_of_ok (readReg_apply r s), hr]
  rfl

theorem mulBy_odd (hr : regOdd r = true) : mulBy r v s =
    .ok () ((s.setReg r (lowWord (mulLong v (s.reg r)))).setFlags (mulFlags v (s.reg r))) := by
  rw [mulBy, bind_of_ok (readReg_apply r s), hr]
  rfl

theorem divBy_odd (hr : regOdd r = true) : divBy r v s = .error (.refusal .divOddRegister) s := by
  rw [divBy, hr]
  rfl

theorem divBy_even (hr : regOdd r = false) : divBy r v s = (if v = 0 then divByZero
    else if divOverflows (longOf (s.reg r) (s.reg (regPair r))) v then divOverflow r
    else divResult r (longOf (s.reg r) (s.reg (regPair r))) v) s := by
  rw [divBy, hr, if_neg Bool.false_ne_true, bind_of_ok (readPair_apply r s)]

theorem divByZero_ok (s : State) : ∃ n z k, divByZero s = .ok () (({ s with draws := k } : State).setFlags ⟨n, z, true, true⟩) :=
  ⟨_, _, _, rfl⟩

theorem divOverflow_ok (r : Reg) (s : State) : ∃ n z k v, divOverflow r s =
    .ok () ((({ s with draws := k } : State).setPair r v).setFlags ⟨n, z, true, false⟩) := ⟨_, _, _, _, rfl⟩

theorem divResult_apply (r : Reg) (dividend : Long) (divisor : Word) (s : State) : divResult r dividend divisor s =
    .ok () (((s.setReg r (BitVec.ofInt 16 (divQuotient dividend divisor))).setReg (regPair r)
      (BitVec.ofInt 16 (divRemainder dividend divisor))).setFlags (divFlags (divQuotient dividend divisor))) := rfl

/-- A shift of a register, where the carry after a count of zero and what the shift computes are known. -/
theorem shiftRegister_of_shift {t : State} {c : Bool} {result : Word} {codes : Flags} (hc : zeroCarry (shiftCount v) s = .ok c t)
    (hshift : shiftOp c (s.reg r) (shiftCount v) = (result, codes)) :
    shiftRegister r v s = .ok () ((t.setReg r result).setFlags codes) := by
  rw [shiftRegister, bind_of_ok (readReg_apply r s), bind_of_ok hc, hshift, bind_of_ok (writeReg_apply r _ t), writeFlags_apply]

theorem shiftPair_of_shift {t : State} {c : Bool} {result : Long} {codes : Flags} (hc : zeroCarry (shiftCount v) s = .ok c t)
    (hshift : shiftOp c (longOf (s.reg r) (s.reg (regPair r))) (shiftCount v) = (result, codes)) :
    shiftPair r v s = .ok () ((t.setPair r result).setFlags codes) := by
  rw [shiftPair, bind_of_ok (readPair_apply r s), bind_of_ok hc, hshift, bind_of_ok (writePair_apply r _ t), writeFlags_apply]

end

end Sys2Proof.Machine
end

section
/-! The statements about the extended instruction set that are settled (42_double_operand_eis.md). -/

namespace Sys2Proof.Proofs

open Sys2Proof.Machine

/-- Settles O47: by the parity of the register. -/
theorem multiply : Obligations.Multiply := by
  intro r ss s s1 s2 loc x hsource hx p high low codes
  have hhigh : highWord (mulLong x (s2.reg r)) = high := highWord_ofInt p
  have hlow : lowWord (mulLong x (s2.reg r)) = low := lowWord_ofInt p
  rw [exec_mul, runInstr_bind_of_ok (sourceWord_of_ok hsource hx), ← hhigh, ← hlow]
  exact ⟨fun hr => runInstr_of_ok (mulBy_even hr), fun hr => runInstr_of_ok (mulBy_odd hr)⟩

/-- Settles O48: the quotient and the remainder are the only ones that satisfy the division law. -/
theorem divide : Obligations.Divide := by
  intro r ss s s1 s2 loc x hsource hx
  rw [exec_div, runInstr_bind_of_ok (sourceWord_of_ok hsource hx)]
  refine ⟨fun q m hr hx0 hlaw hsmall hsign hlow hhigh => ?_, fun hr => runInstr_of_refusal (divBy_odd hr)⟩
  rw [← toInt_longOf] at hlaw
  rw [← toInt_longOf_neg_iff _ (s2.reg (regPair r))] at hsign
  have hquotient : divQuotient (longOf (s2.reg r) (s2.reg (regPair r))) x = q := tdiv_eq_of_law hlaw hsmall hsign
  have hremainder : divRemainder (longOf (s2.reg r) (s2.reg (regPair r))) x = m := by
    rw [divRemainder, hquotient, hlaw, add_sub_cancel_left]
  have hfits : divOverflows (longOf (s2.reg r) (s2.reg (regPair r))) x = false := by
    rw [divOverflows, hquotient]
    exact decide_eq_false (by omega)
  have hrun := divBy_even (v := x) (s := s2) hr
  rw [if_neg hx0, hfits, if_neg Bool.false_ne_true, divResult_apply, hquotient, hremainder] at hrun
  exact runInstr_of_ok hrun

/-- Settles O49: a zero divisor, then a quotient that does not fit. -/
theorem divideOpenCases : Obligations.DivideOpenCases := by
  intro r ss s s1 s2 loc x hsource hx hr
  rw [exec_div, runInstr_bind_of_ok (sourceWord_of_ok hsource hx)]
  have hrun := divBy_even (v := x) (s := s2) hr
  refine ⟨fun hx0 => ?zero, fun hx0 hopen => ?overflow⟩
  case zero =>
    obtain ⟨n, z, k, hzero⟩ := divByZero_ok s2
    rw [if_pos hx0, hzero] at hrun
    exact ⟨n, z, k, runInstr_of_ok hrun⟩
  case overflow =>
    obtain ⟨n, z, k, v, hany⟩ := divOverflow_ok r s2
    have hoverflows : divOverflows (longOf (s2.reg r) (s2.reg (regPair r))) x = true := by
      have hdivisor : x.toInt ≠ 0 := fun h => hx0 (BitVec.eq_of_toInt_eq (h.trans BitVec.toInt_zero.symm))
      obtain ⟨hlaw, hsmall, hsign⟩ := law_of_tdiv (a := (longOf (s2.reg r) (s2.reg (regPair r))).toInt) hdivisor
      rw [toInt_longOf_neg_iff] at hsign
      have hout := hopen _ _ ((toInt_longOf _ _).symm.trans hlaw) hsmall hsign
      exact decide_eq_true hout
    rw [if_neg hx0, if_pos hoverflows, hany] at hrun
    exact ⟨n, z, k, highWord v, lowWord v, runInstr_of_ok hrun⟩

/-- Settles O50: by the sign of the count. -/
theorem arithmeticShift : Obligations.ArithmeticShift := by
  intro r ss i s s1 s2 loc x hi hsource hx k d
  have hexec : exec i s = runInstr (shiftRegister r x) s2 := by
    rcases hi with rfl | ⟨rfl, hr⟩
    · rw [exec_ash, runInstr_bind_of_ok (sourceWord_of_ok hsource hx)]
    · rw [exec_ashc, runInstr_bind_of_ok (sourceWord_of_ok hsource hx), shiftCombined, if_pos hr]
  rw [hexec]
  refine ⟨fun hk => ?left, fun hk => ?right, fun hk => ?zero⟩
  case left => exact runInstr_of_ok (shiftRegister_of_shift (zeroCarry_of_ne hk.ne' s2) (shiftOp_left false d (by decide) hk))
  case right => exact runInstr_of_ok (shiftRegister_of_shift (zeroCarry_of_ne hk.ne s2) (shiftOp_right false d hk))
  case zero =>
    obtain ⟨c, n, hclear, hkeep, hc⟩ := zeroCarry_zero hk s2
    exact ⟨c, n, hclear, hkeep, runInstr_of_ok (shiftRegister_of_shift hc (shiftOp_zero c d hk))⟩

/-- Settles O51: by the sign of the count; no count of six bits leaves the long. -/
theorem arithmeticShiftCombined : Obligations.ArithmeticShiftCombined := by
  intro r ss s s1 s2 loc x hr hsource hx k d done
  have hexec : exec (.ashc r ss) s = runInstr (shiftPair r x) s2 := by
    rw [exec_ashc, runInstr_bind_of_ok (sourceWord_of_ok hsource hx), shiftCombined, hr, if_neg Bool.false_ne_true]
  have hd : longOf (s2.reg r) (s2.reg (regPair r)) = d := longOf_eq_sum _ _
  obtain ⟨hlow, hhigh⟩ : -32 ≤ k ∧ k < 32 := shiftCount_bounds x
  rw [hexec]
  refine ⟨fun hk => ?left, fun hk => ?right, fun hk => ?zero⟩
  case left =>
    have hshift := shiftOp_left false d (by decide) hk
    rw [decide_eq_true (show k ≤ (32 : Nat) by omega), Bool.true_and] at hshift
    exact runInstr_of_ok (shiftPair_of_shift (zeroCarry_of_ne hk.ne' s2) (hd ▸ hshift))
  case right =>
    have hshift := shiftOp_right false d hk
    rw [if_pos (show (-k).toNat ≤ 32 by omega)] at hshift
    exact runInstr_of_ok (shiftPair_of_shift (zeroCarry_of_ne hk.ne s2) (hd ▸ hshift))
  case zero =>
    obtain ⟨c, n, hclear, hkeep, hc⟩ := zeroCarry_zero hk s2
    exact ⟨c, n, hclear, hkeep, runInstr_of_ok (shiftPair_of_shift hc (hd ▸ shiftOp_zero c d hk))⟩

end Sys2Proof.Proofs
end

section
/-! SUPPORT. Frames of the extended instruction set and of `xor` (42 R203 to R207). -/

namespace Sys2Proof.Machine

/-! ## Registers written once the source has been read -/

/-- `body` stores nothing, and changes no register cell but those named, the PC and the condition codes, told from the beginning `s` of
the instruction. -/
def WritesOnly (s : State) (changed : List (Option RegCell)) (body : Action Unit) : Prop :=
  ∀ t u : State, ReadsOnly s changed t → body t = .ok () u → ReadFrame changed s u

section
variable {s t : State} {changed : List (Option RegCell)} {r : Reg} {v : Word}

theorem ReadsOnly.withDraws (h : ReadsOnly s changed t) (n : Nat) : ReadsOnly s changed { t with draws := n } :=
  { h with cells := fun c hc => Eq.trans (by cases c <;> rfl) (h.cells c hc) }

theorem ReadsOnly.setPair (h : ReadsOnly s changed t) (v : Long) (hr : cellOf s.mode r ∈ changed)
    (hpair : cellOf s.mode (regPair r) ∈ changed) : ReadsOnly s changed (t.setPair r v) :=
  (h.setReg _ (.inr hr)).setReg _ (.inr hpair)

/-- The carry after a count of zero may draw a free value, and changes nothing else (log 2). -/
theorem zeroCarry_ok {k : Int} {c : Bool} {u : State} (h : zeroCarry k t = .ok c u) : ∃ n, u = { t with draws := n } := by
  rcases eq_or_ne k 0 with hk | hk
  · obtain ⟨c', n, -, -, hc⟩ := zeroCarry_zero hk t
    rw [hc] at h
    cases h
    exact ⟨n, rfl⟩
  · rw [zeroCarry_of_ne hk] at h
    cases h
    exact ⟨t.draws, rfl⟩

theorem mulBy_writesOnly (hr : cellOf s.mode r ∈ changed) (hpair : cellOf s.mode (regPair r) ∈ changed) :
    WritesOnly s changed (mulBy r v) := by
  intro t u h hrun
  cases hodd : regOdd r with
  | true =>
    rw [mulBy_odd hodd] at hrun
    cases hrun
    exact (h.setReg _ (.inr hr)).setFlags _
  | false =>
    rw [mulBy_even hodd] at hrun
    cases hrun
    exact (h.setPair _ hr hpair).setFlags _

theorem divBy_writesOnly (hr : cellOf s.mode r ∈ changed) (hpair : cellOf s.mode (regPair r) ∈ changed) :
    WritesOnly s changed (divBy r v) := by
  intro t u h hrun
  cases hodd : regOdd r with
  | true => rw [divBy_odd hodd] at hrun; cases hrun
  | false =>
    rw [divBy_even hodd] at hrun
    split at hrun
    · obtain ⟨n, z, k, hzero⟩ := divByZero_ok t
      rw [hzero] at hrun
      cases hrun
      exact (h.withDraws k).setFlags _
    · split at hrun
      · obtain ⟨n, z, k, any, hany⟩ := divOverflow_ok r t
        rw [hany] at hrun
        cases hrun
        exact ((h.withDraws k).setPair any hr hpair).setFlags _
      · rw [divResult_apply] at hrun
        cases hrun
        exact ((h.setReg _ (.inr hr)).setReg _ (.inr hpair)).setFlags _

theorem shiftRegister_writesOnly (hr : cellOf s.mode r ∈ changed) : WritesOnly s changed (shiftRegister r v) := by
  intro t u h hrun
  rw [shiftRegister, bind_of_ok (readReg_apply r t)] at hrun
  obtain ⟨c, t1, hc, hrun⟩ := bind_eq_ok.mp hrun
  obtain ⟨n, rfl⟩ := zeroCarry_ok hc
  rw [bind_of_ok (writeReg_apply ..), writeFlags_apply] at hrun
  cases hrun
  exact ((h.withDraws n).setReg _ (.inr hr)).setFlags _

theorem shiftPair_writesOnly (hr : cellOf s.mode r ∈ changed) (hpair : cellOf s.mode (regPair r) ∈ changed) :
    WritesOnly s changed (shiftPair r v) := by
  intro t u h hrun
  rw [shiftPair, bind_of_ok (readPair_apply r t)] at hrun
  obtain ⟨c, t1, hc, hrun⟩ := bind_eq_ok.mp hrun
  obtain ⟨n, rfl⟩ := zeroCarry_ok hc
  rw [bind_of_ok (writePair_apply ..), writeFlags_apply] at hrun
  cases hrun
  exact ((h.withDraws n).setPair _ hr hpair).setFlags _

theorem shiftCombined_writesOnly (hr : cellOf s.mode r ∈ changed) (hpair : cellOf s.mode (regPair r) ∈ changed) :
    WritesOnly s changed (shiftCombined r v) := by
  rw [shiftCombined]
  split
  · exact shiftRegister_writesOnly hr
  · exact shiftPair_writesOnly hr hpair

end

/-- The frame of an instruction that reads its source and then writes registers only; `changed` are those it writes. -/
theorem sourceWord_frame {i : Instr} {ss : Operand} {rest : Word → Action Unit} {changed : List (Option RegCell)} {s t : State}
    (hexec : exec i s = runInstr (sourceWord ss >>= rest) s)
    (hrest : ∀ v, WritesOnly s (steppedCell s.mode ss :: changed) (rest v)) (hcompletes : completes i s t) :
    ReadFrame (steppedCell s.mode ss :: changed) s t := by
  obtain ⟨v, s2, hsource, hrun⟩ := bind_eq_ok.mp (completes_ok hexec hcompletes)
  exact hrest v s2 t (((readsOnly_refl s).afterSourceWord hsource).append changed) hrun

/-- Each of the four writes the register of its code and the next one of its pair (42 R203 to R206). -/
theorem registerOperand_shape (r : Reg) (ss : Operand) (s : State) {changed : List (Option RegCell)} (hr : cellOf s.mode r ∈ changed)
    (hpair : cellOf s.mode (regPair r) ∈ changed) : ∀ i ∈ [Instr.mul r ss, .div r ss, .ash r ss, .ashc r ss],
    ∃ rest : Word → Action Unit, (∀ v, WritesOnly s changed (rest v)) ∧ exec i s = runInstr (sourceWord ss >>= rest) s := by
  simp only [List.forall_mem_cons]
  exact ⟨⟨_, fun _ => mulBy_writesOnly hr hpair, exec_mul r ss s⟩, ⟨_, fun _ => divBy_writesOnly hr hpair, exec_div r ss s⟩,
    ⟨_, fun _ => shiftRegister_writesOnly hr, exec_ash r ss s⟩, ⟨_, fun _ => shiftCombined_writesOnly hr hpair, exec_ashc r ss s⟩,
    List.forall_mem_nil _⟩

theorem xorWith_storesOnlyTo (r : Reg) (dd : Operand) : StoresOnlyTo .word dd (xorWith r dd) := by
  intro s t u changed h hrun
  obtain ⟨loc, s1, hoperand, hrun⟩ := bind_eq_ok.mp hrun
  obtain ⟨d, s2, hload, hrun⟩ := bind_eq_ok.mp hrun
  rw [bind_of_ok (readReg_apply r s2), bind_of_ok (readFlags_apply s2)] at hrun
  obtain ⟨hit, s3, hstore, hrun⟩ := bind_eq_ok.mp hrun
  rw [assignFlags_apply] at hrun
  cases hrun
  exact ⟨loc, s1, hoperand, (h.afterOperand hoperand).afterStore (loadWord_ok hload) (storeWordIn_stored hstore) hit _⟩

end Sys2Proof.Machine
end

section
/-! The statement about the frame of the extended instruction set and of `xor` that is settled. -/

namespace Sys2Proof.Proofs

open Sys2Proof.Machine

/-- Settles O58: the four by the registers they write, `xor` as an instruction that stores to one destination. -/
theorem frameRegisterOperand : Obligations.FrameRegisterOperand := by
  intro r ss i s t
  refine ⟨fun hi hcompletes => ?registers, fun hcompletes => ?xor⟩
  case registers =>
    obtain ⟨rest, hrest, hexec⟩ := registerOperand_shape r ss s
      (changed := [steppedCell s.mode ss, cellOf s.mode r, cellOf s.mode (regPair r)]) (by simp) (by simp) i hi
    obtain ⟨hcells, hmemory, hothers, hpsw⟩ := sourceWord_frame hexec hrest hcompletes
    refine ⟨hcells, hmemory, hothers, hpsw, fun hash => ?_⟩
    subst hash
    have hfirst : cellOf s.mode r ∈ [steppedCell s.mode ss, cellOf s.mode r] := by simp
    exact (sourceWord_frame (exec_ash r ss s) (fun _ => shiftRegister_writesOnly hfirst) hcompletes).1
  case xor =>
    exact xorWith_storesOnlyTo r ss s s t [] (readsOnly_refl s) (completes_ok (exec_xor r ss s) hcompletes)

end Sys2Proof.Proofs
end

section
/-! SUPPORT. Jumps and subroutine linkage (43_jump_subroutine.md): how each runs, and what it went through where it completed. -/

namespace Sys2Proof.Machine

section
variable {s s1 s2 t : State} {r : Reg} {dd : Operand} {nn : BitVec 6} {ea x : Word} {pushed : Bool}

/-! ## Addresses and counts -/

theorem addressOf_of_mem (h : operand .word dd s = .ok (.mem ea pushed) s1) : addressOf dd s = .ok ea s1 := by
  rw [addressOf, bind_of_ok h]
  rfl

/-- Only a destination in memory has an address (43 R210). -/
theorem addressOf_ok (h : addressOf dd s = .ok ea s1) : ∃ pushed, operand .word dd s = .ok (.mem ea pushed) s1 := by
  obtain ⟨loc, s2, hoperand, hloc⟩ := bind_eq_ok.mp h
  cases loc with
  | reg r => cases hloc
  | mem ea' pushed => cases hloc; exact ⟨pushed, hoperand⟩

theorem wordCount_eq (nn : BitVec 6) : wordCount nn = BitVec.ofNat 16 (2 * nn.toNat) := by
  rw [BitVec.ofNat_mul, BitVec.ofNat_toNat]
  rfl

/-! ## Runs to the end -/

theorem exec_jmp_of_ok (hdest : operand .word dd s = .ok (.mem ea pushed) s1) :
    exec (.jmp dd) s = .next { s1 with pc := ea } :=
  runInstr_of_ok (bind_of_ok (addressOf_of_mem hdest))

theorem exec_jsr_of_ok (hdest : operand .word dd s = .ok (.mem ea pushed) s1) (hpush : push (s1.reg r) s1 = .ok () s2) :
    exec (.jsr r dd) s = .next { (s2.setReg r s2.pc) with pc := ea } :=
  runInstr_of_ok (by
    rw [bind_of_ok (addressOf_of_mem hdest), bind_of_ok (readReg_apply r s1), bind_of_ok hpush,
      bind_of_ok (readReg_apply .pc s2), bind_of_ok (writeReg_apply ..)]
    rfl)

theorem exec_rts_of_ok (hpop : pop { s with pc := s.reg r } = .ok x s1) : exec (.rts r) s = .next (s1.setReg r x) :=
  runInstr_of_ok (by
    rw [bind_of_ok (readReg_apply r s), bind_of_ok (writeReg_apply ..)]
    exact bind_of_ok hpop)

/-- Writing SP leaves R5 alone, so the PC comes from the frame pointer that the instruction began with (43 R213). -/
theorem exec_mark_of_ok
    (hpop : pop { (s.setReg .sp (s.pc + BitVec.ofNat 16 (2 * nn.toNat))) with pc := s.r5 } = .ok x s1) :
    exec (.mark nn) s = .next { s1 with r5 := x } := by
  have hfp : (s.setReg .sp (s.reg .pc + wordCount nn)).reg .r5 = s.r5 := setReg_reg_of_ne s _ nofun
  exact runInstr_of_ok (by
    rw [bind_of_ok (readReg_apply .pc s), bind_of_ok (writeReg_apply ..), bind_of_ok (readReg_apply ..),
      bind_of_ok (writeReg_apply ..), hfp, wordCount_eq]
    exact bind_of_ok hpop)

theorem exec_sob (r : Reg) (nn : BitVec 6) (s : State) : exec (.sob r nn) s = .next
    (if s.reg r - 1 = 0 then s.setReg r (s.reg r - 1)
      else { (s.setReg r (s.reg r - 1)) with pc := (s.setReg r (s.reg r - 1)).pc - wordCount nn }) :=
  runInstr_of_ok (by
    rw [bind_of_ok (readReg_apply r s), bind_of_ok (writeReg_apply ..)]
    split <;> rfl)

/-- The word 077rnn as its formula (30 R106): the fields do not overlap. -/
theorem encode_sob (r : Reg) (nn : BitVec 6) :
    encode (.sob r nn) = BitVec.ofNat 16 (0o077000 + 64 * r.bits.toNat + nn.toNat) := by
  cases r <;> revert nn <;> decide

/-! ## What an instruction that completed went through -/

theorem jmp_completes (h : completes (.jmp dd) s t) :
    ∃ ea pushed s1, operand .word dd s = .ok (.mem ea pushed) s1 ∧ t = s1.setReg .pc ea := by
  obtain ⟨ea, s1, hdest, hrun⟩ := bind_eq_ok.mp (completes_ok rfl h)
  obtain ⟨pushed, hoperand⟩ := addressOf_ok hdest
  rw [writeReg_apply] at hrun
  cases hrun
  exact ⟨ea, pushed, s1, hoperand, rfl⟩

theorem jsr_completes (h : completes (.jsr r dd) s t) :
    ∃ ea pushed s1 s2, operand .word dd s = .ok (.mem ea pushed) s1 ∧ push (s1.reg r) s1 = .ok () s2 ∧
      t = (s2.setReg r s2.pc).setReg .pc ea := by
  obtain ⟨ea, s1, hdest, hrun⟩ := bind_eq_ok.mp (completes_ok rfl h)
  obtain ⟨pushed, hoperand⟩ := addressOf_ok hdest
  rw [bind_of_ok (readReg_apply r s1)] at hrun
  obtain ⟨_, s2, hpush, hrun⟩ := bind_eq_ok.mp hrun
  rw [bind_of_ok (readReg_apply .pc s2), bind_of_ok (writeReg_apply ..), writeReg_apply] at hrun
  cases hrun
  exact ⟨ea, pushed, s1, s2, hoperand, hpush, rfl⟩

theorem rts_completes (h : completes (.rts r) s t) :
    ∃ x s1, pop (s.setReg .pc (s.reg r)) = .ok x s1 ∧ t = s1.setReg r x := by
  have hrun := completes_ok rfl h
  rw [bind_of_ok (readReg_apply r s), bind_of_ok (writeReg_apply ..)] at hrun
  obtain ⟨x, s1, hpop, hrun⟩ := bind_eq_ok.mp hrun
  rw [writeReg_apply] at hrun
  cases hrun
  exact ⟨x, s1, hpop, rfl⟩

theorem mark_completes (h : completes (.mark nn) s t) :
    ∃ x s1, pop ((s.setReg .sp (s.pc + wordCount nn)).setReg .pc s.r5) = .ok x s1 ∧ t = s1.setReg .r5 x := by
  have hrun := completes_ok rfl h
  have hfp : (s.setReg .sp (s.reg .pc + wordCount nn)).reg .r5 = s.r5 := setReg_reg_of_ne s _ nofun
  rw [bind_of_ok (readReg_apply .pc s), bind_of_ok (writeReg_apply ..), bind_of_ok (readReg_apply ..),
    bind_of_ok (writeReg_apply ..), hfp] at hrun
  obtain ⟨x, s1, hpop, hrun⟩ := bind_eq_ok.mp hrun
  rw [writeReg_apply] at hrun
  cases hrun
  exact ⟨x, s1, hpop, rfl⟩

theorem rti_completes (h : completes .rti s t) : returnFromTrap s = .ok () t := completes_ok rfl h

theorem rtt_completes (h : completes .rtt s t) :
    ∃ u, returnFromTrap s = .ok () u ∧ t = { u with traceInhibit := true } := by
  obtain ⟨_, u, hreturn, hrun⟩ := bind_eq_ok.mp (completes_ok rfl h)
  cases hrun
  exact ⟨u, hreturn, rfl⟩

theorem loadReturnPsw_ok {popped : Word} (h : loadReturnPsw popped s = .ok () t) : ∃ p, t = { s with psw := p } := by
  cases hmode : s.mode with
  | kernel =>
    rw [loadReturnPsw_kernel hmode] at h
    split at h
    · cases h; exact ⟨_, rfl⟩
    · cases h
  | user =>
    rw [loadReturnPsw_user hmode] at h
    cases h
    exact ⟨_, rfl⟩

theorem returnFromTrap_ok (h : returnFromTrap s = .ok () t) :
    ∃ newPc popped s1 s2 p, pop s = .ok newPc s1 ∧ pop { s1 with pc := newPc } = .ok popped s2 ∧ t = { s2 with psw := p } := by
  obtain ⟨newPc, s1, hpc, h⟩ := bind_eq_ok.mp h
  rw [bind_of_ok (writeReg_apply ..)] at h
  obtain ⟨popped, s2, hps, h⟩ := bind_eq_ok.mp h
  obtain ⟨p, rfl⟩ := loadReturnPsw_ok h
  exact ⟨newPc, popped, s1, s2, p, hpc, hps, rfl⟩

end

/-! ## Frames of the instructions that store nothing -/

section
variable {s t : State} {changed : List (Option RegCell)}

theorem ReadsOnly.frame (h : ReadsOnly s changed t) :
    cellsKept s t changed ∧ memoryKept s t ∧ othersKept s t ∧ t.psw = s.psw :=
  ⟨h.cells, h.memory, h.others, h.psw⟩

/-- A return pops twice and loads the PSW (40 R143). -/
theorem returnFromTrap_frame (h : returnFromTrap s = .ok () t) :
    cellsKept s t [some (spCell s.mode)] ∧ memoryKept s t ∧ othersKept s t := by
  obtain ⟨newPc, popped, s1, s2, p, hpc, hps, rfl⟩ := returnFromTrap_ok h
  have hpops := returnPops_readsOnly hpc hps
  refine ⟨fun c hc => ?_, hpops.memory, hpops.others⟩
  rw [← hpops.cells c hc]
  cases c <;> rfl

end

end Sys2Proof.Machine
end

section
/-! The statements about jumps and returns that are settled (43_jump_subroutine.md). -/

namespace Sys2Proof.Proofs

open Sys2Proof.Machine

/-- Settles O52. -/
theorem jumpsAndReturns : Obligations.JumpsAndReturns := fun _ _ _ _ _ _ _ _ _ =>
  ⟨exec_jmp_of_ok, exec_jsr_of_ok, exec_rts_of_ok, exec_mark_of_ok⟩

/-- Settles O53: the code by its fields, the effect by whether the decremented register is zero. -/
theorem subtractOneAndBranch : Obligations.SubtractOneAndBranch := by
  intro r nn s t
  refine ⟨encode_sob r nn ▸ decodeWord_encode rfl, ?_⟩
  have hzero : s.reg r - 1 = 0 ↔ s.reg r = 1 := sub_eq_zero
  rw [exec_sob, wordCount_eq]
  exact congrArg _ (if_congr hzero rfl rfl)

/-- Settles O59: each of them reads, moves registers and the PC, and for the returns from a trap loads the PSW. -/
theorem frameJumps : Obligations.FrameJumps := by
  intro r dd nn s t
  refine ⟨fun h => ?jmp, fun h => ?rts, fun h => ?mark, fun h => returnFromTrap_frame (rti_completes h), fun h => ?rtt⟩
  case jmp =>
    obtain ⟨ea, pushed, s1, hdest, rfl⟩ := jmp_completes h
    exact (((readsOnly_refl s).afterOperand hdest).setReg ea (.inl rfl)).frame
  case rts =>
    obtain ⟨x, s1, hpop, rfl⟩ := rts_completes h
    have hstart := (readsOnly_refl s).append [cellOf s.mode .sp, cellOf s.mode r]
    exact (((hstart.setReg _ (.inl rfl)).afterPop (by simp) hpop).setReg x (.inr (by simp))).frame
  case mark =>
    obtain ⟨x, s1, hpop, rfl⟩ := mark_completes h
    have hstart := (readsOnly_refl s).append [cellOf s.mode .sp, cellOf s.mode .r5]
    have hfreed := (hstart.setReg (r := .sp) (s.pc + wordCount nn) (.inr (by simp))).setReg (r := .pc) s.r5 (.inl rfl)
    exact ((hfreed.afterPop (by simp) hpop).setReg x (.inr (by simp))).frame
  case rtt =>
    obtain ⟨u, hreturn, rfl⟩ := rtt_completes h
    obtain ⟨hcells, hmemory, hswitches, hdr, hmmr0, hmmr2, hkpar, hkpdr, hupar, hupdr, hpending, -, hlater⟩ :=
      returnFromTrap_frame hreturn
    refine ⟨fun c hc => ?_, hmemory, hswitches, hdr, hmmr0, hmmr2, hkpar, hkpdr, hupar, hupdr, hpending, rfl, hlater⟩
    rw [← hcells c hc]
    cases c <;> rfl

end Sys2Proof.Proofs
end

section
/-! SUPPORT. Frames of the instructions that push or pop and store: `jsr`, `mfpi` and `mtpi` (41 R178, R179, 43 R212). -/

namespace Sys2Proof.Machine

/-! ## Reads move no place in memory -/

section
variable {s t : State} {changed : List (Option RegCell)}

theorem ReadsOnly.prevMode (h : ReadsOnly s changed t) : t.prevMode = s.prevMode := by
  rw [State.prevMode, State.prevMode, h.psw]

theorem ReadsOnly.mmr0 (h : ReadsOnly s changed t) : t.mmr0 = s.mmr0 := by
  obtain ⟨-, -, hmmr0, -⟩ := h.others
  exact hmmr0

theorem ReadsOnly.cfg (h : ReadsOnly s changed t) : t.cfg = s.cfg := by
  obtain ⟨-, -, -, -, -, -, -, -, -, -, -, -, -, hcfg⟩ := h.others
  exact hcfg

theorem ReadsOnly.physAddr (h : ReadsOnly s changed t) (space : Mode) (va : Word) : t.physAddr space va = s.physAddr space va := by
  obtain ⟨hpar, hpdr⟩ := paging_of_othersKept h.others
  simp only [State.physAddr, h.mmr0, h.cfg, hpar, hpdr]

theorem ReadsOnly.storesTo (h : ReadsOnly s changed t) (w : Width) (space : Mode) (loc : Loc) (a : Nat) :
    storesTo w space t loc a ↔ storesTo w space s loc a := by
  cases loc with
  | reg r => exact Iff.rfl
  | mem ea pushed => simp only [Machine.storesTo, h.physAddr]

theorem ReadsOnly.ioTarget (h : ReadsOnly s changed t) (space : Mode) (loc : Loc) : ioTarget space t loc = ioTarget space s loc := by
  cases loc with
  | reg r => rfl
  | mem ea pushed => simp only [Machine.ioTarget, h.physAddr, h.cfg]

theorem ReadsOnly.writtenPage (h : ReadsOnly s changed t) (space : Mode) (loc : Loc) :
    writtenPage space t loc = writtenPage space s loc := by
  cases loc with
  | reg r => rfl
  | mem ea pushed => simp only [Machine.writtenPage, h.mmr0]

/-- What a store may leave changed is the same, told from either end of the reads before it. -/
theorem ReadsOnly.othersAfterStore (h : ReadsOnly s changed t) {space : Mode} {loc : Loc} {u v : State}
    (hstore : othersAfterStore space t loc u v) : othersAfterStore space s loc u v := by
  simpa only [Machine.othersAfterStore, h.ioTarget, h.writtenPage, h.mode] using hstore

theorem setReg_par (s : State) (r : Reg) (v : Word) (mode : Mode) (page : BitVec 3) :
    (s.setReg r v).par mode page = s.par mode page := by
  cases mode <;> simp only [State.par, setReg_kernelPar, setReg_userPar]

theorem setReg_pdr (s : State) (r : Reg) (v : Word) (mode : Mode) (page : BitVec 3) :
    (s.setReg r v).pdr mode page = s.pdr mode page := by
  cases mode <;> simp only [State.pdr, setReg_kernelPdr, setReg_userPdr]

theorem setStackPointer_cell_of_ne (s : State) {mode : Mode} {c : RegCell} (v : Word) (h : spCell mode ≠ c) :
    (s.setStackPointer mode v).cell c = s.cell c := by
  cases mode <;> cases c <;> first | rfl | exact absurd rfl h

theorem ReadsOnly.setStackPointer (h : ReadsOnly s changed t) {mode : Mode} (v : Word) (hsp : some (spCell mode) ∈ changed) :
    ReadsOnly s changed (t.setStackPointer mode v) := by
  have hcells : cellsKept s (t.setStackPointer mode v) changed := fun c hc =>
    (setStackPointer_cell_of_ne t v (by rintro rfl; exact hc hsp)).trans (h.cells c hc)
  cases mode <;> exact { h with cells := hcells }

end

/-! ## One store, in the space of a mode -/

/-- `t` comes from `s` by reads, by changes of the named register cells and the PC, and by a store to `loc` in the address space of
`space` as the state `s1` maps it. -/
structure StoresAt (w : Width) (space : Mode) (s1 : State) (loc : Loc) (s : State) (changed : List (Option RegCell)) (t : State) :
    Prop where
  cells : cellsKept s t changed
  bytes : bytesKept w space s1 loc s t
  others : othersAfterStore space s1 loc s t
  psw : ioTarget space s1 loc ≠ some .psw → t.psw = s.psw

section
variable {w : Width} {space : Mode} {s s1 s2 t : State} {loc : Loc} {changed moved : List (Option RegCell)}

/-- Reads and then a store to memory; `s1`, in which its place is told, lies before it with nothing stored in between. -/
theorem ReadsOnly.thenStored {ea : Word} {pushed : Bool} (h : ReadsOnly s changed s2) (hplace : ReadsOnly s1 moved s2)
    (hstore : Stored w space (.mem ea pushed) s2 t) : StoresAt w space s1 (.mem ea pushed) s changed t where
  cells := fun c hc => (hstore.cells c (by simp [locCell])).trans (h.cells c hc)
  bytes := fun a ha => (hstore.bytes a (mt (hplace.storesTo ..).mp ha)).trans (h.memory a)
  others := hplace.othersAfterStore (othersAfterStore_of_othersKept h.others hstore.sr hstore.switchMoves hstore.others)
  psw := fun htarget => (hstore.psw (by rwa [hplace.ioTarget])).trans h.psw

/-- A register destination stores nothing. -/
theorem ReadsOnly.storesAt_reg (h : ReadsOnly s changed t) (r : Reg) : StoresAt w space s1 (.reg r) s changed t where
  cells := h.cells
  bytes := fun a _ => h.memory a
  others := by
    obtain ⟨hpar, hpdr⟩ := paging_of_othersKept h.others
    obtain ⟨hswitches, hdr, hmmr0, hmmr2, -, -, -, -, hpending, hinhibit, hrun, hyellow, hia, hcfg⟩ := h.others
    exact ⟨hswitches, hmmr2, hpending, hinhibit, hrun, hia, hcfg, fun _ => hdr, fun _ => hmmr0, fun mode page _ => hpar mode page,
      fun mode page _ => hpdr mode page, hyellow.trans (Bool.or_false _).symm⟩
  psw := fun _ => h.psw

theorem StoresAt.setReg (h : StoresAt w space s1 loc s changed t) {r : Reg} (v : Word) (hr : r = .pc ∨ cellOf t.mode r ∈ changed) :
    StoresAt w space s1 loc s changed (t.setReg r v) where
  cells := fun c hc => by
    rw [setReg_cell_of_ne v, h.cells c hc]
    rcases hr with rfl | hr
    · exact nofun
    · exact fun heq => hc (heq ▸ hr)
  bytes := fun a ha => by rw [State.byteAt, setReg_mem]; exact h.bytes a ha
  others := by
    have ho := h.others
    simpa only [othersAfterStore, switchesFollow, setReg_sr, setReg_switchMoves, setReg_dr, setReg_mmr0, setReg_mmr2, setReg_par,
      setReg_pdr, setReg_pending, setReg_traceInhibit, setReg_run, setReg_yellowPending, setReg_ia, setReg_cfg] using ho
  psw := fun htarget => (setReg_psw t r v).trans (h.psw htarget)

/-- Assigning the condition codes at the end, or leaving the PSW that the store wrote (20 R65). -/
theorem StoresAt.codesAfter (h : StoresAt w space s1 loc s changed t) (hit : Bool) (f : Flags) :
    cellsKept s (t.codesAfter hit f) changed ∧ bytesKept w space s1 loc s (t.codesAfter hit f) ∧
      othersAfterStore space s1 loc s (t.codesAfter hit f) ∧
      (ioTarget space s1 loc ≠ some .psw → pswAboveKept s (t.codesAfter hit f)) := by
  refine ⟨fun c hc => ?_, fun a ha => ?_, ?_, fun htarget => pswAboveKept_codesAfter (h.psw htarget) hit f⟩
  · rw [← h.cells c hc]
    cases hit <;> cases c <;> rfl
  · rw [← h.bytes a ha]
    cases hit <;> rfl
  · cases hit <;> exact h.others

end

/-! ## The stack and the previous mode's space -/

section
variable {s s1 s2 t : State} {v : Word} {loc : Loc} {changed : List (Option RegCell)}

/-- A push decrements SP and is then a store, tagged as a push, to where SP points (10 R23, 20 R67). -/
theorem push_stored (h : push v s = .ok () t) :
    Stored .word s.mode (.mem (s.reg .sp - 2) true) (s.setReg .sp (s.reg .sp - 2)) t := by
  rw [push_apply] at h
  cases hw : memWriteWordIn s.mode (s.reg .sp - 2) v (s.setReg .sp (s.reg .sp - 2)) with
  | error e u => rw [hw] at h; cases h
  | ok hit u =>
    rw [hw] at h
    cases h
    exact storeWordIn_stored (hit := hit) (v := v) (by rw [storeWordIn_mem, hw, setReg_mode]; rfl)

/-- The frame of reads followed by a push. -/
theorem ReadsOnly.afterPush (h : ReadsOnly s changed s1) (hsp : cellOf s.mode .sp ∈ changed) (hload : ∃ n, s2 = s1.drawn n)
    (hpush : push v s2 = .ok () t) : StoresAt .word s.mode s1 (.mem (s1.reg .sp - 2) true) s changed t := by
  obtain ⟨n, rfl⟩ := hload
  have hstore := push_stored hpush
  rw [(h.drawn n).mode] at hstore
  have hplace := (((readsOnly_refl s1).append [cellOf s1.mode .sp]).drawn n).setReg (r := .sp) (s1.reg .sp - 2) (.inr (by simp))
  exact ((h.drawn n).setReg _ (.inr hsp)).thenStored hplace hstore

/-- The operand of `mfpi` is read without a change, in the previous mode's space too (41 R178, logs 2, 3). -/
theorem loadPrevious_ok (h : loadPrevious loc s = .ok v t) : ∃ n, t = s.drawn n := by
  cases loc with
  | mem ea pushed => exact memReadWordIn_ok (loadPrevious_mem ea pushed s ▸ h)
  | reg r =>
    rcases eq_or_ne r .sp with rfl | hr
    · rw [loadPrevious_sp] at h
      cases h
      exact ⟨⟨0, 0⟩, (drawn_none s).symm⟩
    · rw [loadPrevious_reg hr] at h
      cases h
      exact ⟨⟨0, 0⟩, (drawn_none s).symm⟩

/-- Every register but SP is the same in both modes (10 R21). -/
theorem cellOf_of_ne_sp {r : Reg} (hr : r ≠ .sp) (mode mode' : Mode) : cellOf mode r = cellOf mode' r := by
  cases r with
  | sp => exact absurd rfl hr
  | _ => rfl

/-- The destination of `mtpi` after reads: a register of the previous mode, or a store in that mode's space (41 R179). -/
theorem ReadsOnly.afterStorePrevious {hit : Bool} (h : ReadsOnly s changed s1) (hloc : locCell s.prevMode loc ∈ changed)
    (hstore : storePrevious loc v s1 = .ok hit t) : StoresAt .word s.prevMode s1 loc s changed t := by
  cases loc with
  | mem ea pushed =>
    rw [storePrevious_mem, h.prevMode] at hstore
    exact h.thenStored (readsOnly_refl s1) (storeWordIn_stored hstore)
  | reg r =>
    rcases eq_or_ne r .sp with rfl | hr
    · rw [storePrevious_sp, h.prevMode] at hstore
      cases hstore
      exact (h.setStackPointer v hloc).storesAt_reg .sp
    · rw [storePrevious_reg hr] at hstore
      cases hstore
      rw [locCell, cellOf_of_ne_sp hr _ s.mode] at hloc
      exact (h.setReg v (.inr hloc)).storesAt_reg r

end

/-! ## What the previous-space moves went through -/

section
variable {s t : State} {o : Operand}

theorem mfpi_completes (h : completes (.mfpi o) s t) :
    ∃ loc s1 v s2 s3, operand .word o s = .ok loc s1 ∧ loadPrevious loc s1 = .ok v s2 ∧ push v s2 = .ok () s3 ∧
      t = s3.codesAfter false (logicFlags s3.flags v) := by
  obtain ⟨loc, s1, hoperand, hrun⟩ := bind_eq_ok.mp (completes_ok rfl h)
  obtain ⟨v, s2, hload, hrun⟩ := bind_eq_ok.mp hrun
  obtain ⟨_, s3, hpush, hrun⟩ := bind_eq_ok.mp hrun
  rw [bind_of_ok (readFlags_apply s3), writeFlags_apply] at hrun
  cases hrun
  exact ⟨loc, s1, v, s2, s3, hoperand, hload, hpush, rfl⟩

theorem mtpi_completes (h : completes (.mtpi o) s t) :
    ∃ v s1 loc s2 hit s3, pop s = .ok v s1 ∧ operand .word o s1 = .ok loc s2 ∧ storePrevious loc v s2 = .ok hit s3 ∧
      t = s3.codesAfter hit (logicFlags s3.flags v) := by
  obtain ⟨v, s1, hpop, hrun⟩ := bind_eq_ok.mp (completes_ok rfl h)
  obtain ⟨loc, s2, hoperand, hrun⟩ := bind_eq_ok.mp hrun
  obtain ⟨hit, s3, hstore, hrun⟩ := bind_eq_ok.mp hrun
  rw [bind_of_ok (readFlags_apply s3), assignFlags_apply] at hrun
  cases hrun
  exact ⟨v, s1, loc, s2, hit, s3, hpop, hoperand, hstore, rfl⟩

end

end Sys2Proof.Machine
end

section
/-! The statement about the frame of the instructions that push or pop and store that is settled. -/

namespace Sys2Proof.Proofs

open Sys2Proof.Machine

/-- Settles O60: `jsr` and `mfpi` push after reads; `mtpi` stores in the previous mode's space after its pop and its operand. -/
theorem frameStack : Obligations.FrameStack := by
  intro r o s t
  refine ⟨fun h => ?jsr, fun h => ?mfpi, fun h => ?mtpi⟩
  case jsr =>
    obtain ⟨ea, pushed, s1, s2, hoperand, hpush, rfl⟩ := jsr_completes h
    have hreads := ((readsOnly_refl s).afterOperand hoperand).append [cellOf s.mode .sp, cellOf s2.mode r]
    have hpushed := hreads.afterPush (by simp) ⟨⟨0, 0⟩, (drawn_none s1).symm⟩ hpush
    have hlinked := (hpushed.setReg (r := r) s2.pc (.inr (by simp))).setReg (r := .pc) ea (.inl rfl)
    simp only [setReg_mode]
    exact ⟨_, s1, hoperand, hlinked.cells, hlinked.bytes, hlinked.others, hlinked.psw⟩
  case mfpi =>
    obtain ⟨loc, s1, v, s2, s3, hoperand, hload, hpush, rfl⟩ := mfpi_completes h
    have hreads := ((readsOnly_refl s).afterOperand hoperand).append [cellOf s.mode .sp]
    exact ⟨loc, s1, hoperand, (hreads.afterPush (by simp) (loadPrevious_ok hload) hpush).codesAfter false _⟩
  case mtpi =>
    obtain ⟨v, s1, loc, s2, hit, s3, hpop, hoperand, hstore, rfl⟩ := mtpi_completes h
    have hpopped := ((readsOnly_refl s).append [cellOf s.mode .sp]).afterPop (by simp) hpop
    have hreads := (hpopped.afterOperand hoperand).append [locCell s.prevMode loc]
    exact ⟨v, s1, loc, s2, hpop, hoperand, (hreads.afterStorePrevious (by simp) hstore).codesAfter hit _⟩

end Sys2Proof.Proofs
end

section
/-! SUPPORT. The branches (44_branches.md): where each goes and when. -/

namespace Sys2Proof.Machine

/-! ## The target -/

/-- The displacement is a signed word offset, in bytes (30 R116). -/
theorem branchDisplacement_eq_ofInt (nn : BitVec 8) : branchDisplacement nn = BitVec.ofInt 16 (2 * nn.toInt) := by
  rw [branchDisplacement, BitVec.signExtend, BitVec.shiftLeft_eq_mul_twoPow, mul_comm, BitVec.ofInt_mul]
  rfl

/-- The sum of the PC and the displacement is taken modulo 2^16 (44 R220). -/
theorem add_branchDisplacement (pc : Word) (nn : BitVec 8) :
    pc + branchDisplacement nn = BitVec.ofInt 16 (pc.toNat + 2 * nn.toInt) := by
  rw [branchDisplacement_eq_ofInt, BitVec.ofInt_add, BitVec.ofInt_natCast, BitVec.ofNat_toNat, BitVec.setWidth_eq]

/-! ## The shared shape -/

section
variable {cond : Flags → Bool} {nn : BitVec 8} {s : State}

theorem branchIf_taken (h : cond s.flags = true) :
    branchIf cond nn s = .ok () { s with pc := BitVec.ofInt 16 (s.pc.toNat + 2 * nn.toInt) } := by
  rw [branchIf, bind_of_ok (readFlags_apply s), if_pos h, bind_of_ok (readReg_apply .pc s), writeReg_apply, ← add_branchDisplacement]
  rfl

theorem branchIf_not_taken (h : ¬ cond s.flags = true) : branchIf cond nn s = .ok () s := by
  rw [branchIf, bind_of_ok (readFlags_apply s), if_neg h]
  rfl

/-- An instruction whose pseudocode is a branch, its condition on the flags said as a proposition `p` (44 R220). -/
theorem exec_branch {i : Instr} (cond : Flags → Bool) {p : Prop} [Decidable p] (hexec : exec i s = runInstr (branchIf cond nn) s)
    (hcond : cond s.flags = true ↔ p) :
    exec i s = if p then .next { s with pc := BitVec.ofInt 16 (s.pc.toNat + 2 * nn.toInt) } else .next s := by
  rw [hexec]
  split
  · next hp => exact runInstr_of_ok (branchIf_taken (hcond.mpr hp))
  · next hp => exact runInstr_of_ok (branchIf_not_taken (mt hcond.mp hp))

end

/-! ## The conditions of two flags -/

theorem not_and_beq_iff {z n v : Bool} : (!z && n == v) = true ↔ z = false ∧ n = v :=
  Bool.and_eq_true_iff.trans (and_congr (Bool.not_eq_true' z).to_iff beq_iff_eq)

theorem or_bne_iff {z n v : Bool} : (z || n != v) = true ↔ z = true ∨ n ≠ v :=
  Bool.or_eq_true_iff.trans (or_congr Iff.rfl bne_iff_ne)

theorem not_and_not_iff {c z : Bool} : (!c && !z) = true ↔ c = false ∧ z = false :=
  Bool.and_eq_true_iff.trans (and_congr (Bool.not_eq_true' c).to_iff (Bool.not_eq_true' z).to_iff)

end Sys2Proof.Machine
end

section
/-! The statement about the branches that is settled (44_branches.md). -/

namespace Sys2Proof.Proofs

open Sys2Proof.Machine

/-- Settles O54: each branch is `branchIf` with its own condition, which says of the flags what the statement says of the PSW's bits. -/
theorem branches : Obligations.Branches := by
  intro nn s taken n z v c
  refine ⟨?br, ?bne, ?beq, ?bge, ?blt, ?bgt, ?ble, ?bpl, ?bmi, ?bhi, ?blos, ?bvc, ?bvs, ?bcc, ?bcs⟩
  case br => exact runInstr_of_ok (branchIf_taken (cond := fun _ => true) rfl)
  case bne => exact exec_branch (fun f => !f.z) rfl (Bool.not_eq_true' z).to_iff
  case beq => exact exec_branch (fun f => f.z) rfl Iff.rfl
  case bge => exact exec_branch (fun f => f.n == f.v) rfl beq_iff_eq
  case blt => exact exec_branch (fun f => f.n != f.v) rfl bne_iff_ne
  case bgt => exact exec_branch (fun f => !f.z && f.n == f.v) rfl not_and_beq_iff
  case ble => exact exec_branch (fun f => f.z || f.n != f.v) rfl or_bne_iff
  case bpl => exact exec_branch (fun f => !f.n) rfl (Bool.not_eq_true' n).to_iff
  case bmi => exact exec_branch (fun f => f.n) rfl Iff.rfl
  case bhi => exact exec_branch (fun f => !f.c && !f.z) rfl not_and_not_iff
  case blos => exact exec_branch (fun f => f.c || f.z) rfl Bool.or_eq_true_iff
  case bvc => exact exec_branch (fun f => !f.v) rfl (Bool.not_eq_true' v).to_iff
  case bvs => exact exec_branch (fun f => f.v) rfl Iff.rfl
  case bcc => exact exec_branch (fun f => !f.c) rfl (Bool.not_eq_true' c).to_iff
  case bcs => exact exec_branch (fun f => f.c) rfl Iff.rfl

end Sys2Proof.Proofs
end

section
/-! SUPPORT. One cycle of the processor (60 R250, R266): whether a request is accepted, and the fetch of the instruction word. -/

namespace Sys2Proof.Machine

section
variable {s : State}

/-! ## Choosing a request (60 R250) -/

theorem mem_acceptable {ipl : BitVec 3} {l : List Request} {q : Request} : q ∈ acceptable ipl l ↔ q ∈ l ∧ ipl < q.br := by
  simp [acceptable]

/-- No request has a larger BR than the largest. -/
theorem br_le_maxBr {l : List Request} {q : Request} (hq : q ∈ l) : q.br ≤ maxBr l := by
  induction l with
  | nil => cases hq
  | cons p rest ih =>
    rw [maxBr]
    rcases List.mem_cons.mp hq with rfl | hq
    · split <;> bv_omega
    · have := ih hq
      split <;> bv_omega

/-- Some request has the largest BR, where there is one at all. -/
theorem exists_br_eq_maxBr {l : List Request} (hl : l ≠ []) : ∃ q ∈ l, q.br = maxBr l := by
  induction l with
  | nil => exact absurd rfl hl
  | cons p rest ih =>
    rw [maxBr]
    split
    · exact ⟨p, List.mem_cons_self, rfl⟩
    · rename_i hle
      cases rest with
      | nil => exact ⟨p, List.mem_cons_self, by rw [maxBr] at hle ⊢; bv_omega⟩
      | cons p' rest' =>
        obtain ⟨q, hq, hbr⟩ := ih nofun
        exact ⟨q, List.mem_cons_of_mem p hq, hbr⟩

/-- The candidates are the requests above IPL of the largest BR of all (60 R250). -/
theorem mem_candidates {ipl : BitVec 3} {l : List Request} {q : Request} (hq : q ∈ candidates ipl l) :
    q ∈ l ∧ ipl < q.br ∧ ∀ p ∈ l, p.br ≤ q.br := by
  simp only [candidates, List.mem_filter, decide_eq_true_eq] at hq
  obtain ⟨haccept, hbr⟩ := hq
  obtain ⟨hmem, hipl⟩ := mem_acceptable.mp haccept
  refine ⟨hmem, hipl, fun p hp => ?_⟩
  by_cases hp' : ipl < p.br
  · exact hbr ▸ br_le_maxBr (mem_acceptable.mpr ⟨hp, hp'⟩)
  · bv_omega

theorem candidates_ne_nil {ipl : BitVec 3} {l : List Request} (h : ∃ q ∈ l, ipl < q.br) : candidates ipl l ≠ [] := by
  obtain ⟨q, hq, hipl⟩ := h
  obtain ⟨p, hp, hbr⟩ := exists_br_eq_maxBr (List.ne_nil_of_mem (mem_acceptable.mpr ⟨hq, hipl⟩))
  exact List.ne_nil_of_mem (List.mem_filter.mpr ⟨hp, by simpa using hbr⟩)

/-- Where no request is above IPL none is chosen (60 R250). -/
theorem chooseRequest_none (hquiet : ∀ q ∈ s.pending, ¬ pswIPL s.psw < q.br) : chooseRequest s = none := by
  have hnil : candidates (pswIPL s.psw) s.pending = [] := by
    refine List.eq_nil_iff_forall_not_mem.mpr fun q hq => ?_
    obtain ⟨hmem, hipl, -⟩ := mem_candidates hq
    exact hquiet q hmem hipl
  simp only [chooseRequest, hnil]

/-- Where some request is above IPL one of the candidates is chosen, by a draw of the environment's (60 R250, log 2). -/
theorem chooseRequest_some (h : ∃ q ∈ s.pending, pswIPL s.psw < q.br) :
    ∃ q ∈ candidates (pswIPL s.psw) s.pending, ∃ n, chooseRequest s = some (q, { s with draws := n }) := by
  have hne := candidates_ne_nil h
  unfold chooseRequest
  generalize candidates (pswIPL s.psw) s.pending = l at hne
  match l with
  | [] => exact absurd rfl hne
  | [q] => exact ⟨q, List.mem_singleton_self q, s.draws, rfl⟩
  | q :: q' :: rest =>
    have hlt : Config.freeChoice s.draws % ((q' :: rest).length + 1) < (q :: q' :: rest).length := Nat.mod_lt _ (Nat.succ_pos _)
    refine ⟨_, ?_, s.draws + 1, rfl⟩
    rw [List.getD_eq_getElem _ _ hlt]
    exact List.getElem_mem hlt

/-! ## What a step does (60 R266) -/

/-- A running processor that no request interrupts runs an instruction. -/
theorem step_of_quiet (hrun : s.run = .running) (hquiet : ∀ q ∈ s.pending, ¬ pswIPL s.psw < q.br) : step s = instrCycle s := by
  simp only [step, hrun, chooseRequest_none hquiet]

/-- A processor that has not halted accepts the request that is chosen. -/
theorem step_of_request {q : Request} {s1 : State} (hrun : s.run ≠ .halted) (hq : chooseRequest s = some (q, s1)) :
    step s = acceptRequest q s1 := by
  cases hs : s.run with
  | halted => exact absurd hs hrun
  | waiting | running => simp only [step, hs, hq]

/-- The fetch of the instruction word is the read at the PC, and the PC steps past the word (10 R22, 60 R266). -/
theorem fetchInstr_apply (s : State) :
    fetchInstr s = match memReadWordIn s.mode s.pc { s with ia := s.pc, trapTaken := false } with
      | .ok w t => .ok w { t with pc := s.pc + 2 }
      | .error e t => .error e t := by
  rw [fetchInstr, fetchWord_apply]
  rfl

/-- The instruction whose word was fetched runs, and its checks follow (60 R266). -/
theorem instrCycle_of_fetch {w : Word} {i : Instr} {s1 : State}
    (hread : memReadWordIn s.mode s.pc { s with ia := s.pc, trapTaken := false } = .ok w s1) (hi : decodeWord w = some i) :
    instrCycle s = afterInstr (exec i { s1 with pc := s.pc + 2 }) := by
  have hfetch : fetchInstr s = .ok w { s1 with pc := s.pc + 2 } := by rw [fetchInstr_apply, hread]
  simp only [instrCycle, hfetch, execWord, hi]

/-- A failing fetch takes the trap of its exception (60 R243). -/
theorem instrCycle_of_fetch_error {e : Exn} {s1 : State}
    (hread : memReadWordIn s.mode s.pc { s with ia := s.pc, trapTaken := false } = .error (.raised e) s1) :
    instrCycle s = afterInstr (takeTrap e s1) := by
  have hfetch : fetchInstr s = .error (.raised e) s1 := by rw [fetchInstr_apply, hread]
  simp only [instrCycle, hfetch]

/-- A word read that fails changes nothing, but may record a fault in MMR0 (20 R83). -/
theorem memReadWordIn_error {mode : Mode} {va : Word} {e : Abort} {t : State} (h : memReadWordIn mode va s = .error e t) :
    ∃ m, t = { s with mmr0 := m } := by
  rw [memReadWordIn_apply] at h
  split at h
  · cases h; exact ⟨s.mmr0, rfl⟩
  · split at h
    · cases h; exact ⟨_, rfl⟩
    · exact ⟨s.mmr0, (physReadWord_error h).2⟩

/-- A word read from memory (20 R54, R61). -/
theorem memReadWordIn_memory {mode : Mode} {va : Word} (heven : va.getLsbD 0 = false)
    (hallowed : mmuEnabled s.mmr0 = true → s.accessReasons mode va .read = 0) (htop : (s.physAddr mode va).toNat < s.cfg.memTop) :
    memReadWordIn mode va s = .ok (s.wordAt (s.physAddr mode va).toNat) s :=
  (memReadWordIn_of_allowed heven hallowed).trans (physReadWord_memory htop)

/-- Two bytes that decode to an instruction are the bytes of a word that does (20 R54, 30 R100). -/
theorem decodeWord_of_decodeBytes {lo hi : Byte} {rest : List Byte} {x : Instr × List Byte}
    (h : decodeBytes (lo :: hi :: rest) = .ok x) : decodeWord (wordOf hi lo) = some x.1 := by
  rw [decodeBytes] at h
  split at h
  · cases h; assumption
  · cases h

/-- The checks at the end of an instruction, in their order (60 R247, R256, R266). -/
theorem afterInstr_next (t : State) : afterInstr (.next t) =
    if t.trapTaken = true then .next { t with trapTaken := false }
    else if t.run ≠ .running then .next { t with yellowPending := false, traceInhibit := false }
    else if t.yellowPending = true then trapAt 0o004 { t with yellowPending := false, traceInhibit := false }
    else if pswT t.psw = true ∧ t.traceInhibit = false then trapAt 0o014 { t with traceInhibit := false }
    else .next { t with traceInhibit := false } := by
  simp only [afterInstr, endOfInstruction, Bool.and_eq_true, Bool.not_eq_true']

end

end Sys2Proof.Machine
end

section
/-! The statements about the cycle of the processor that are settled (60_exceptions.md). -/

namespace Sys2Proof.Proofs

open Sys2Proof.Machine

/-- Settles O4: no request is chosen, so the word at the PC is fetched; the bytes in memory are that word. -/
theorem stepRunsDecodedInstruction : Obligations.StepRunsDecodedInstruction := by
  intro s i hrun hquiet _
  have hword : ∀ (w : Word) (s1 : State), memReadWordIn s.mode s.pc { s with ia := s.pc, trapTaken := false } = .ok w s1 →
      decodeWord w = some i → step s = afterInstr (exec i { s1 with pc := s.pc + 2 }) := fun w s1 hread hdecode =>
    (step_of_quiet hrun hquiet).trans (instrCycle_of_fetch hread hdecode)
  refine ⟨hword, fun heven hallowed htop hbytes => ?_⟩
  exact hword _ _ (memReadWordIn_memory heven hallowed htop) (decodeWord_of_decodeBytes hbytes)

/-- Settles O5. -/
theorem checksAfterInstruction : Obligations.ChecksAfterInstruction := by
  intro s s1 t i w hrun hquiet hread hdecode hexec
  rw [step_of_quiet hrun hquiet, instrCycle_of_fetch hread hdecode, hexec, afterInstr_next]

/-- Settles O6: the failing read records at most the fault in MMR0. -/
theorem fetchFaultTraps : Obligations.FetchFaultTraps := by
  intro s s1 e hrun hquiet hread
  obtain ⟨m, rfl⟩ := memReadWordIn_error hread
  exact ⟨rfl, (step_of_quiet hrun hquiet).trans (instrCycle_of_fetch_error hread)⟩

/-- Settles O7. -/
theorem stoppedProcessorStays : Obligations.StoppedProcessorStays := fun s =>
  ⟨fun hhalted => by simp only [step, hhalted], fun hwaiting hquiet => by simp only [step, hwaiting, chooseRequest_none hquiet]⟩

/-- Settles O8: the request that is chosen is a candidate. -/
theorem interruptIsAccepted : Obligations.InterruptIsAccepted := by
  intro s hrun hrequest
  obtain ⟨q, hq, n, hchoose⟩ := chooseRequest_some hrequest
  obtain ⟨hmem, hipl, hmax⟩ := mem_candidates hq
  exact ⟨q, hmem, hipl, hmax, n, step_of_request hrun hchoose⟩

end Sys2Proof.Proofs
end

section
/-! SUPPORT. Changes of the state that move no address: the mapping and the permissions of the MMU stay as they are (20 R74, R76). -/

namespace Sys2Proof.Machine

/-- `t` maps and allows every address as `s` does: the MMU is on in both or in neither, and the paging registers
differ in bit C alone. -/
structure MapsAs (s t : State) : Prop where
  enabled : mmuEnabled t.mmr0 = mmuEnabled s.mmr0
  cfg : t.cfg = s.cfg
  par : ∀ mode page, t.par mode page = s.par mode page
  pdr : ∀ mode page, t.pdr mode page = s.pdr mode page ∨ t.pdr mode page = pdrSetC (s.pdr mode page)

theorem mapsAs_refl (s : State) : MapsAs s s := ⟨rfl, rfl, fun _ _ => rfl, fun _ _ => .inl rfl⟩

section
variable {s t : State} (h : MapsAs s t)
include h

theorem MapsAs.physAddr (mode : Mode) (va : Word) : t.physAddr mode va = s.physAddr mode va := by
  rcases h.pdr mode (pageOf va) with hpdr | hpdr <;> simp only [State.physAddr, h.enabled, h.cfg, h.par, hpdr, mmuMap_pdrSetC]

theorem MapsAs.accessReasons (mode : Mode) (va : Word) (kind : Access) :
    t.accessReasons mode va kind = s.accessReasons mode va kind := by
  rcases h.pdr mode (pageOf va) with hpdr | hpdr <;> simp only [State.accessReasons, h.cfg, hpdr, mmuReasons_pdrSetC]

theorem MapsAs.kernelAccess {va : Word} {kind : Access} (ha : s.kernelAccess va kind) : t.kernelAccess va kind := by
  rwa [State.kernelAccess, h.enabled, h.accessReasons, h.physAddr, h.cfg]

theorem MapsAs.trans {u : State} (h' : MapsAs t u) : MapsAs s u where
  enabled := h'.enabled.trans h.enabled
  cfg := h'.cfg.trans h.cfg
  par := fun mode page => (h'.par mode page).trans (h.par mode page)
  pdr := fun mode page => by
    rcases h'.pdr mode page with hpdr' | hpdr' <;> rcases h.pdr mode page with hpdr | hpdr <;>
      simp only [hpdr', hpdr, pdrSetC_idem, true_or, or_true]

/-- Marking the page of a write moves no address (20 R76). -/
theorem MapsAs.afterWrite (on : Bool) (mode : Mode) (va : Word) : MapsAs s (t.afterWrite on mode va) where
  enabled := (congrArg mmuEnabled (afterWrite_mmr0 ..)).trans h.enabled
  cfg := (afterWrite_cfg ..).trans h.cfg
  par := fun m p => (afterWrite_par ..).trans (h.par m p)
  pdr := fun m p => by
    rcases afterWrite_pdr_or t on mode va m p with hset | hsame <;> rcases h.pdr m p with hpdr | hpdr
    · exact .inr (hset.trans (congrArg pdrSetC hpdr))
    · exact .inr (by rw [hset, hpdr, pdrSetC_idem])
    · exact .inl (hsame.trans hpdr)
    · exact .inr (hsame.trans hpdr)

end

end Sys2Proof.Machine
end

section
/-! SUPPORT. What a user program that the MMU confines to memory can do (60 R260, R261, 20 R74). -/

namespace Sys2Proof.Machine

/-- `t` comes from `s` by what a confined user program does: modes, IPL and everything of the kernel's are as they were, and of memory
only the bytes it may write have changed. -/
structure UserRan (s t : State) : Prop where
  maps : MapsAs s t
  cm : pswCM t.psw = pswCM s.psw
  pm : pswPM t.psw = pswPM s.psw
  ipl : pswIPL t.psw = pswIPL s.psw
  ksp : t.ksp = s.ksp
  mmr0 : t.mmr0 = s.mmr0
  mmr2 : t.mmr2 = s.mmr2
  dr : t.dr = s.dr
  pending : t.pending = s.pending
  notHalted : t.run ≠ .halted
  kernelPdr : ∀ page, t.pdr .kernel page = s.pdr .kernel page
  bytes : ∀ a, ¬ userWritable s a → t.byteAt a = s.byteAt a

theorem userRan_refl {s : State} (hrun : s.run = .running) : UserRan s s where
  maps := mapsAs_refl s
  cm := rfl
  pm := rfl
  ipl := rfl
  ksp := rfl
  mmr0 := rfl
  mmr2 := rfl
  dr := rfl
  pending := rfl
  notHalted := by rw [hrun]; nofun
  kernelPdr := fun _ => rfl
  bytes := fun _ _ => rfl

section
variable {s t : State}

theorem UserRan.mode (h : UserRan s t) : t.mode = s.mode := congrArg modeOf h.cm

theorem UserRan.prevMode (h : UserRan s t) : t.prevMode = s.prevMode := congrArg modeOf h.pm

/-- The state stays confined: modes and mapping are the same. -/
theorem UserRan.confined (h : UserRan s t) (hs : Confined s) : Confined t where
  user := h.mode.trans hs.user
  previous := h.prevMode.trans hs.previous
  mapped := h.maps.enabled.trans hs.mapped
  memoryOnly := fun va hva => by
    rw [h.maps.accessReasons] at hva
    rw [h.maps.physAddr, h.maps.cfg]
    exact hs.memoryOnly va hva

/-- In user mode a register write does not reach the kernel's stack pointer (10 R23). -/
theorem UserRan.setReg (h : UserRan s t) (hs : Confined s) (r : Reg) (v : Word) : UserRan s (t.setReg r v) where
  maps :=
    { enabled := by rw [setReg_mmr0, h.maps.enabled]
      cfg := by rw [setReg_cfg, h.maps.cfg]
      par := fun mode page => (setReg_par ..).trans (h.maps.par mode page)
      pdr := fun mode page => by rw [setReg_pdr]; exact h.maps.pdr mode page }
  cm := by rw [setReg_psw, h.cm]
  pm := by rw [setReg_psw, h.pm]
  ipl := by rw [setReg_psw, h.ipl]
  ksp := by
    have hcell : cellOf t.mode r ≠ some .ksp := by
      rw [h.mode, hs.user]
      cases r <;> nofun
    exact (setReg_cell_of_ne v hcell).trans h.ksp
  mmr0 := by rw [setReg_mmr0, h.mmr0]
  mmr2 := by rw [setReg_mmr2, h.mmr2]
  dr := by rw [setReg_dr, h.dr]
  pending := by rw [setReg_pending, h.pending]
  notHalted := by rw [setReg_run]; exact h.notHalted
  kernelPdr := fun page => (setReg_pdr ..).trans (h.kernelPdr page)
  bytes := fun a ha => by rw [State.byteAt, setReg_mem]; exact h.bytes a ha

/-- A PSW with the same modes and IPL. -/
theorem UserRan.withPsw (h : UserRan s t) {p : Word} (hcm : pswCM p = pswCM t.psw) (hpm : pswPM p = pswPM t.psw)
    (hipl : pswIPL p = pswIPL t.psw) : UserRan s { t with psw := p } :=
  { h with maps := { h.maps with }, cm := hcm.trans h.cm, pm := hpm.trans h.pm, ipl := hipl.trans h.ipl }

/-- A store into bytes that a user program may write, marked in the PDR of its page (20 R61, R76). -/
theorem UserRan.store (h : UserRan s t) (on : Bool) (va : Word) {m : Memory}
    (hbytes : ∀ a, ¬ userWritable s a → memByte m a = t.byteAt a) :
    UserRan s (({ t with mem := m } : State).afterWrite on .user va) where
  maps :=
    have hstored : MapsAs s { t with mem := m } := { h.maps with }
    hstored.afterWrite on .user va
  cm := by rw [afterWrite_psw, h.cm]
  pm := by rw [afterWrite_psw, h.pm]
  ipl := by rw [afterWrite_psw, h.ipl]
  ksp := (afterWrite_cell _ _ _ _ .ksp).trans h.ksp
  mmr0 := by rw [afterWrite_mmr0, h.mmr0]
  mmr2 := by rw [afterWrite_mmr2, h.mmr2]
  dr := by rw [afterWrite_dr, h.dr]
  pending := by rw [afterWrite_pending, h.pending]
  notHalted := by rw [afterWrite_run]; exact h.notHalted
  kernelPdr := fun page => by
    rw [afterWrite_pdr, if_neg fun ⟨_, hmode, _⟩ => nomatch hmode]
    exact h.kernelPdr page
  bytes := fun a ha => (afterWrite_byteAt ..).trans ((hbytes a ha).trans (h.bytes a ha))

/-- A word that a confined program stores goes to memory, to bytes it may write (20 R74, 60 R260). -/
theorem UserRan.writeWord (h : UserRan s t) (hs : Confined s) (va v : Word) :
    Leaves (UserRan s) (fun _ => True) (memWriteWordIn .user va v t) := by
  cases hw : memWriteWordIn .user va v t with
  | error e u => trivial
  | ok hit u =>
    obtain ⟨heven, hallowed⟩ := memWriteWordIn_ok_allowed hw
    have hreasons : t.accessReasons .user va .write = 0 := hallowed (h.confined hs).mapped
    rw [memWriteWordIn_memory v heven hallowed ((h.confined hs).memoryOnly va hreasons)] at hw
    cases hw
    rw [h.maps.accessReasons] at hreasons
    rw [h.maps.physAddr]
    exact h.store _ va fun a ha =>
      byteAt_putWord_of_ne t v (fun hlow => ha ⟨va, hreasons, .inl hlow⟩) (fun hhigh => ha ⟨va, hreasons, .inr hhigh⟩)

/-- So does a byte. -/
theorem UserRan.writeByte (h : UserRan s t) (hs : Confined s) (va : Word) (b : Byte) :
    Leaves (UserRan s) (fun _ => True) (memWriteByteIn .user va b t) := by
  by_cases hreasons : t.accessReasons .user va .write = 0
  · rw [memWriteByteIn_memory b (fun _ => hreasons) ((h.confined hs).memoryOnly va hreasons)]
    rw [h.maps.accessReasons] at hreasons
    rw [h.maps.physAddr]
    exact h.store _ va fun a ha => byteAt_putByte_of_ne t b fun heq => ha ⟨va, hreasons, .inl heq⟩
  · rw [memWriteByteIn_mmuFault b ⟨(h.confined hs).mapped, hreasons⟩]
    trivial

/-- Every change an instruction is made of is one a confined user program may make, or one that only kernel mode makes; where an
instruction stops in the middle its trap follows, of which nothing is said. -/
theorem closed_userRan (hs : Confined s) : Closed (UserRan s) fun _ => True where
  weaken := fun _ _ => trivial
  setReg := fun _ r v h => h.setReg hs r v
  setFlags := fun _ _ h => h.withPsw (pswCM_pswWithFlags ..) (pswPM_pswWithFlags ..) (pswIPL_pswWithFlags ..)
  setPreviousSp := fun t v h => by
    rw [h.prevMode, hs.previous]
    exact { h with maps := { h.maps with } }
  drawn := fun _ _ h => { h with maps := { h.maps with } }
  yellow := fun _ h => { h with maps := { h.maps with } }
  mmuFault := fun _ _ _ _ _ => trivial
  writeWord := fun t mode va v hmode h => by
    have huser : mode = .user := by
      rcases hmode with rfl | rfl
      · exact h.mode.trans hs.user
      · exact h.prevMode.trans hs.previous
    rw [huser]
    exact h.writeWord hs va v
  writeByte := fun t va b h => by
    rw [h.mode, hs.user]
    exact h.writeByte hs va b
  returnPsw := fun t v h => by
    rw [loadReturnPsw_user (h.mode.trans hs.user)]
    exact h.withPsw (pswCM_pswOfUserReturn ..) (pswPM_pswOfUserReturn ..) (pswIPL_pswOfUserReturn ..)
  inhibit := fun _ h => { h with maps := { h.maps with } }
  wait := fun _ h => { h with maps := { h.maps with }, notHalted := nofun }
  halt := fun t hkernel h => by
    rw [h.mode, hs.user] at hkernel
    cases hkernel
  reset := fun t hkernel h => by
    rw [h.mode, hs.user] at hkernel
    cases hkernel

/-- An instruction that a confined program completes without a trap did only what such a program does (60 R260, R261). -/
theorem userRan_of_completes {i : Instr} (hs : Confined s) (hrun : s.run = .running) (h : completes i s t) : UserRan s t := by
  obtain ⟨hexec, hunmarked⟩ := h
  rcases exec_ends (closed_userRan hs) i (userRan_refl hrun) t hexec with hran | ⟨e, u, -, htrap⟩
  · exact hran
  · rw [takeTrap_marks htrap] at hunmarked
    cases hunmarked

end

end Sys2Proof.Machine
end

section
/-! The statement about protection that is settled (60_exceptions.md). -/

namespace Sys2Proof.Proofs

open Sys2Proof.Machine

/-- Settles O13: what the instruction did is what a confined program does, and that keeps the modes, the mapping and all of
the kernel's. -/
theorem userModeIsConfined : Obligations.UserModeIsConfined := by
  intro s t i hs hrun hcompletes
  have h := userRan_of_completes hs hrun hcompletes
  exact ⟨h.confined hs, h.ipl, h.ksp, h.mmr0, h.mmr2, h.dr, h.pending, h.notHalted, h.maps.par,
    h.kernelPdr, h.maps.pdr .user, h.bytes⟩

end Sys2Proof.Proofs
end

section
/-! SUPPORT. The trap sequence and the red stack trap where their accesses reach memory through the kernel's space (60 R241, R248). -/

namespace Sys2Proof.Machine

/-! ## Fields of the PSW a trap loads, and halves of words -/

/-- The low byte of the PSW comes from the vector (60 R241). -/
theorem lowByte_pswOfTrap (o n : Word) : lowByte (pswOfTrap o n) = lowByte n := by
  apply BitVec.eq_of_getLsbD_eq
  intro i hi
  simp only [lowByte, pswOfTrap, BitVec.getLsbD_extractLsb', BitVec.getLsbD_or, BitVec.getLsbD_and]
  interval_cases i <;> simp

/-- Bits 11:8 of the PSW of a trap hold nothing (10 R27, 60 R241). -/
theorem pswOfTrap_unused (o n : Word) : (pswOfTrap o n).extractLsb' 8 4 = 0 := by
  apply BitVec.eq_of_getLsbD_eq
  intro i hi
  simp only [pswOfTrap, BitVec.getLsbD_extractLsb', BitVec.getLsbD_or, BitVec.getLsbD_and]
  interval_cases i <;> simp

/-- The fields of a PSW that a trap loaded (60 R241). -/
theorem fields_of_trapPsw {t : State} {o n : Word} (h : t.psw = pswOfTrap o n) :
    t.mode = .kernel ∧ pswPM t.psw = pswCM o ∧ t.psw.extractLsb' 0 8 = lowByte n ∧ t.psw.extractLsb' 8 4 = 0 := by
  rw [State.mode, h, pswCM_pswOfTrap]
  exact ⟨rfl, pswPM_pswOfTrap o n, lowByte_pswOfTrap o n, pswOfTrap_unused o n⟩

/-- An even virtual address has its lowest bit off. -/
theorem getLsbD_zero_of_even {va : Word} (h : va.toNat % 2 = 0) : va.getLsbD 0 = false := by
  rw [getLsbD_zero_eq, h]
  rfl

/-! ## Accesses to memory through the kernel's space -/

/-- The state after a word has been stored in memory at a kernel address (20 R54, R61, R76). -/
def State.kernelStore (s : State) (va v : Word) : State :=
  (s.putWord (s.physAddr .kernel va).toNat v).afterWrite (mmuEnabled s.mmr0) .kernel va

section
variable {s t : State} {va : Word}

theorem memReadWordIn_kernel (heven : va.toNat % 2 = 0) (ha : s.kernelAccess va .read) :
    memReadWordIn .kernel va s = .ok (s.wordAt (s.physAddr .kernel va).toNat) s :=
  memReadWordIn_memory (getLsbD_zero_of_even heven) ha.1 ha.2

theorem memWriteWordIn_kernel (v : Word) (heven : va.toNat % 2 = 0) (ha : s.kernelAccess va .write) :
    ∃ hit, memWriteWordIn .kernel va v s = .ok hit (s.kernelStore va v) :=
  ⟨_, memWriteWordIn_memory v (getLsbD_zero_of_even heven) ha.1 ha.2⟩

theorem kernelStore_wordAt_same (v : Word) : (s.kernelStore va v).wordAt (s.physAddr .kernel va).toNat = v := by
  rw [State.kernelStore, afterWrite_wordAt, wordAt_putWord_same]

theorem kernelStore_byteAt_of_ne {a : Nat} (v : Word) (hlow : a ≠ (s.physAddr .kernel va).toNat)
    (hhigh : a ≠ (s.physAddr .kernel va).toNat + 1) : (s.kernelStore va v).byteAt a = s.byteAt a := by
  rw [State.kernelStore, afterWrite_byteAt, byteAt_putWord_of_ne s v hlow hhigh]

theorem wordAt_of_byteAt {a : Nat} (hlow : t.byteAt a = s.byteAt a) (hhigh : t.byteAt (a + 1) = s.byteAt (a + 1)) :
    t.wordAt a = s.wordAt a := by
  rw [State.wordAt, State.wordAt, hlow, hhigh]

theorem mapsAs_kernelStore (v : Word) : MapsAs s (s.kernelStore va v) :=
  have hstored : MapsAs s (s.putWord (s.physAddr .kernel va).toNat v) := { mapsAs_refl s with }
  hstored.afterWrite ..

/-- The vector is read from memory, and nothing changes (60 R241). -/
theorem vectorFetch_memory {n : Word} (heven : n.toNat % 2 = 0) (ha : ∀ va ∈ [n, n + 2], s.kernelAccess va .read) :
    vectorFetch n s = .ok (s.wordAt (s.physAddr .kernel n).toNat, s.wordAt (s.physAddr .kernel (n + 2)).toNat) s := by
  have heven' : (n + 2).toNat % 2 = 0 := by bv_omega
  rw [vectorFetch_apply, memReadWordIn_kernel heven (ha n (by simp))]
  simp only [memReadWordIn_kernel heven' (ha (n + 2) (by simp))]

end

/-! ## What stores through the kernel's space leave -/

/-- `t` comes from `s` by stores into memory at the kernel addresses `vas`, by changes of KSP, PC and PSW, and of the two flags that a
trap clears. -/
structure KernelStored (vas : List Word) (s t : State) : Prop where
  cells : cellsKept s t [some .ksp]
  paging : pushedThrough vas s t
  run : t.run = s.run
  pending : t.pending = s.pending
  dr : t.dr = s.dr
  sr : t.sr = s.sr
  switchMoves : t.switchMoves = s.switchMoves
  mmr0 : t.mmr0 = s.mmr0
  mmr2 : t.mmr2 = s.mmr2

theorem kernelStored_refl (s : State) : KernelStored [] s s where
  cells := fun _ _ => rfl
  paging := ⟨fun _ _ => rfl, fun _ => rfl, fun _ => (if_neg fun h => nomatch h.2).symm⟩
  run := rfl
  pending := rfl
  dr := rfl
  sr := rfl
  switchMoves := rfl
  mmr0 := rfl
  mmr2 := rfl

section
variable {s t : State} {vas : List Word}

/-- Bit C of the page of a store is set where the MMU is on; a second store through a page changes nothing of it (20 R76). -/
theorem pushedThrough_kernelStore (h : pushedThrough vas s t) (hmmr0 : t.mmr0 = s.mmr0) (va v : Word) :
    pushedThrough (vas ++ [va]) s (t.kernelStore va v) := by
  obtain ⟨hpar, huser, hkernel⟩ := h
  refine ⟨fun mode page => (afterWrite_par ..).trans (hpar mode page), fun page => ?user, fun page => ?kernel⟩
  case user =>
    rw [State.kernelStore, afterWrite_pdr, if_neg fun ⟨_, hmode, _⟩ => nomatch hmode]
    exact huser page
  case kernel =>
    have hold : (t.putWord (t.physAddr .kernel va).toNat v).pdr .kernel page = _ := hkernel page
    rw [State.kernelStore, afterWrite_pdr, hold, hmmr0]
    by_cases hnew : mmuEnabled s.mmr0 = true ∧ page = pageOf va
    · obtain ⟨hon, hpage⟩ := hnew
      have hmem : page ∈ (vas ++ [va]).map pageOf := by simp [hpage]
      rw [if_pos ⟨hon, rfl, hpage⟩, if_pos (c := _ ∧ page ∈ (vas ++ [va]).map pageOf) ⟨hon, hmem⟩]
      split
      · exact pdrSetC_idem _
      · rfl
    · rw [if_neg fun ⟨hon, _, hpage⟩ => hnew ⟨hon, hpage⟩]
      refine if_congr (and_congr_right fun hon => ?_) rfl rfl
      have hpage : page ≠ pageOf va := fun heq => hnew ⟨hon, heq⟩
      simp [hpage]

theorem KernelStored.store (h : KernelStored vas s t) (va v : Word) : KernelStored (vas ++ [va]) s (t.kernelStore va v) where
  cells := fun c hc => (afterWrite_cell ..).trans ((show _ = t.cell c by cases c <;> rfl).trans (h.cells c hc))
  paging := pushedThrough_kernelStore h.paging h.mmr0 va v
  run := (afterWrite_run ..).trans h.run
  pending := (afterWrite_pending ..).trans h.pending
  dr := (afterWrite_dr ..).trans h.dr
  sr := (afterWrite_sr ..).trans h.sr
  switchMoves := (afterWrite_switchMoves ..).trans h.switchMoves
  mmr0 := (afterWrite_mmr0 ..).trans h.mmr0
  mmr2 := (afterWrite_mmr2 ..).trans h.mmr2

theorem KernelStored.control (h : KernelStored vas s t) (ksp pc psw : Word) (yellow inhibit : Bool) :
    KernelStored vas s { t with ksp := ksp, pc := pc, psw := psw, yellowPending := yellow, traceInhibit := inhibit } :=
  { h with
    cells := fun c hc => by
      rw [← h.cells c hc]
      cases c <;> first | rfl | exact absurd (List.mem_singleton_self _) hc }

end

/-! ## The two pushes (60 R241) -/

/-- The state after a push of the trap sequence that reached memory. -/
def State.trapPushed (s : State) (v : Word) : State := ({ s with ksp := s.ksp - 2 } : State).kernelStore (s.ksp - 2) v

section
variable {s : State}

theorem trapPushed_ksp (v : Word) : (s.trapPushed v).ksp = s.ksp - 2 := afterWrite_cell _ _ _ _ .ksp

theorem trapPushed_psw (v : Word) : (s.trapPushed v).psw = s.psw := afterWrite_psw ..

theorem mapsAs_trapPushed (v : Word) : MapsAs s (s.trapPushed v) := { mapsAs_kernelStore (s := { s with ksp := s.ksp - 2 }) v with }

theorem pushKernel_memory (v : Word) (heven : s.ksp.toNat % 2 = 0) (ha : s.kernelAccess (s.ksp - 2) .write) :
    pushKernel v s = .ok () (s.trapPushed v) := by
  have heven' : (s.ksp - 2).toNat % 2 = 0 := by bv_omega
  obtain ⟨hit, hwrite⟩ := memWriteWordIn_kernel (s := { s with ksp := s.ksp - 2 }) v heven' ha
  rw [pushKernel_apply, hwrite]
  rfl

theorem trapPushes_memory (oldPs oldPc : Word) (heven : s.ksp.toNat % 2 = 0)
    (ha : ∀ va ∈ [s.ksp - 2, s.ksp - 4], s.kernelAccess va .write) :
    trapPushes oldPs oldPc s = .ok () ((s.trapPushed oldPs).trapPushed oldPc) := by
  have heven' : (s.trapPushed oldPs).ksp.toNat % 2 = 0 := by rw [trapPushed_ksp]; bv_omega
  have hsecond : (s.trapPushed oldPs).kernelAccess ((s.trapPushed oldPs).ksp - 2) .write := by
    rw [trapPushed_ksp, show s.ksp - 2 - 2 = s.ksp - 4 by bv_omega]
    exact (mapsAs_trapPushed oldPs).kernelAccess (ha _ (by simp))
  rw [trapPushes, bind_of_ok (pushKernel_memory oldPs heven (ha _ (by simp)))]
  exact pushKernel_memory oldPc heven' hsecond

theorem KernelStored.pushed {t : State} {vas : List Word} (h : KernelStored vas s t) (v : Word) :
    KernelStored (vas ++ [t.ksp - 2]) s (t.trapPushed v) :=
  (h.control (t.ksp - 2) t.pc t.psw t.yellowPending t.traceInhibit).store (t.ksp - 2) v

/-- Where the two words of the frame lie in memory, and what else is as it was (60 R241). -/
theorem trapPushed_twice_memory (oldPs oldPc : Word) (hne : s.physAddr .kernel (s.ksp - 2) ≠ s.physAddr .kernel (s.ksp - 4)) :
    let psAt := (s.physAddr .kernel (s.ksp - 2)).toNat
    let pcAt := (s.physAddr .kernel (s.ksp - 4)).toNat
    let t := (s.trapPushed oldPs).trapPushed oldPc
    t.wordAt pcAt = oldPc ∧ t.wordAt psAt = oldPs ∧ ∀ a, a ∉ [psAt, psAt + 1, pcAt, pcAt + 1] → t.byteAt a = s.byteAt a := by
  intro psAt pcAt t
  set u := s.trapPushed oldPs with hu
  have hpcAt : (u.physAddr .kernel (u.ksp - 2)).toNat = pcAt := by
    rw [(mapsAs_trapPushed oldPs).physAddr, hu, trapPushed_ksp, show s.ksp - 2 - 2 = s.ksp - 4 by bv_omega]
  have hsecond : ∀ a, a ≠ pcAt → a ≠ pcAt + 1 → t.byteAt a = u.byteAt a := fun a hlow hhigh =>
    kernelStore_byteAt_of_ne (s := { u with ksp := u.ksp - 2 }) oldPc (hpcAt.symm ▸ hlow) (hpcAt.symm ▸ hhigh)
  have hapart : psAt ≠ pcAt := fun heq => hne (BitVec.eq_of_toNat_eq heq)
  have hparity : psAt % 2 = pcAt % 2 := by
    simp only [psAt, pcAt, physAddr_parity]
    bv_omega
  refine ⟨?pc, ?ps, fun a ha => ?rest⟩
  case pc =>
    rw [← hpcAt]
    exact kernelStore_wordAt_same oldPc
  case ps =>
    rw [wordAt_of_byteAt (hsecond psAt hapart (by omega)) (hsecond (psAt + 1) (by omega) (by omega))]
    exact kernelStore_wordAt_same oldPs
  case rest =>
    simp only [List.mem_cons, List.not_mem_nil, or_false, not_or] at ha
    obtain ⟨hps, hps', hpc, hpc'⟩ := ha
    rw [hsecond a hpc hpc']
    exact kernelStore_byteAt_of_ne oldPs hps hps'

end

/-- What the trap sequence that ran through to its frame leaves (60 R241, 20 R76). -/
theorem kernelStored_trapPushed_twice (s : State) (psw oldPs oldPc : Word) :
    KernelStored [s.ksp - 2, s.ksp - 4] s ((({ s with psw := psw } : State).trapPushed oldPs).trapPushed oldPc) := by
  have hloaded := (kernelStored_refl s).control s.ksp s.pc psw s.yellowPending s.traceInhibit
  have h := (hloaded.pushed oldPs).pushed oldPc
  rwa [trapPushed_ksp, show ∀ x : Word, x - 2 - 2 = x - 4 by bv_omega] at h

/-! ## A push that fails, and the red stack trap (60 R248) -/

/-- A word write fails: the address is odd, the MMU turns the write down, or nothing answers (20 R56, R57, R74). -/
def writeFails (s : State) (mode : Mode) (va : Word) : Prop :=
  va.toNat % 2 = 1 ∨ (mmuEnabled s.mmr0 = true ∧ s.accessReasons mode va .write ≠ 0) ∨
    (¬ (s.physAddr mode va).toNat < s.cfg.memTop ∧ ioRegAt (s.physAddr mode va) = none ∧
      (s.physAddr mode va).toNat ∉ s.cfg.deviceAddrs)

/-- MMR0 after an access that failed: as it was, or with the fault the MMU recorded (20 R83). -/
structure Mmr0AfterFailure (old new : Word) : Prop where
  enabled : mmuEnabled new = mmuEnabled old
  off : mmuEnabled old = false → new = old

section
variable {s u : State}

theorem mmr0AfterFailure_refl (m : Word) : Mmr0AfterFailure m m := ⟨rfl, fun _ => rfl⟩

theorem memWriteWordIn_fails {mode : Mode} {va : Word} (v : Word) (h : writeFails s mode va) :
    ∃ e m, memWriteWordIn mode va v s = .error (.raised e) { s with mmr0 := m } ∧ Mmr0AfterFailure s.mmr0 m := by
  by_cases hodd : va.toNat % 2 = 1
  · exact ⟨_, _, memWriteWordIn_odd v (by rw [getLsbD_zero_eq, hodd]; rfl), mmr0AfterFailure_refl _⟩
  have heven : va.getLsbD 0 = false := getLsbD_zero_of_even (by omega)
  by_cases hfault : mmuEnabled s.mmr0 = true ∧ s.accessReasons mode va .write ≠ 0
  · refine ⟨_, _, memWriteWordIn_mmuFault v heven hfault, mmuEnabled_mmr0OfFault .., fun hoff => ?_⟩
    rw [hfault.1] at hoff
    cases hoff
  · obtain ⟨htop, hr, hdev⟩ := (h.resolve_left hodd).resolve_left hfault
    have hallowed : mmuEnabled s.mmr0 = true → s.accessReasons mode va .write = 0 := fun hon =>
      by_contra fun hreasons => hfault ⟨hon, hreasons⟩
    refine ⟨.busError, s.mmr0, ?_, mmr0AfterFailure_refl _⟩
    rw [memWriteWordIn_of_allowed v heven hallowed, physWriteWord_nothing v htop hr hdev]
    rfl

/-- The pushes end with the first one: KSP has been lowered, and MMR0 records an MMU fault (60 R243, R248, 20 R83). -/
theorem trapPushes_fails (oldPs oldPc : Word) (h : writeFails s .kernel (s.ksp - 2)) :
    ∃ e m, trapPushes oldPs oldPc s = .error (.raised e) { s with ksp := s.ksp - 2, mmr0 := m } ∧ Mmr0AfterFailure s.mmr0 m := by
  have hlowered : writeFails { s with ksp := s.ksp - 2 } .kernel (s.ksp - 2) := h
  obtain ⟨e, m, hwrite, hmmr0⟩ := memWriteWordIn_fails oldPs hlowered
  have hpush : pushKernel oldPs s = .error (.raised e) { s with ksp := s.ksp - 2, mmr0 := m } := by
    rw [pushKernel_apply, hwrite]
  exact ⟨e, m, bind_of_error hpush, hmmr0⟩

/-- A page whose first byte is valid maps its first block to one piece of memory (20 R73, R74). -/
theorem toNat_mmuMap_firstBlock {bounds : MmuBounds} {par pdr : Word} {off : BitVec 13} (hzero : offsetValid bounds pdr 0 = true)
    (hvalid : offsetValid bounds pdr off = true) (hoff : off.toNat < 64) :
    (mmuMap bounds par pdr off).toNat = (mmuMap bounds par pdr 0).toNat + off.toNat := by
  have hlower : bounds = .sourceLiteral ∧ pdrU pdr = true → (pdrS pdr).toNat = 0 := by
    rintro ⟨rfl, hU⟩
    rw [offsetValid_sourceLiteral, if_pos hU] at hzero
    simpa using hzero
  have hpar := (par.extractLsb' 0 12).isLt
  rw [toNat_mmuMap hvalid, toNat_mmuMap hzero, show (0 : BitVec 13).toNat = 0 from rfl]
  split
  · rename_i hupper
    rw [hlower hupper]
    omega
  · omega

theorem pageOf_firstBlock {va : Word} (hva : va.toNat < 64) : pageOf va = 0 := by
  apply BitVec.eq_of_toNat_eq
  rw [pageOf, BitVec.extractLsb'_toNat, Nat.shiftRight_eq_div_pow]
  change va.toNat / 2 ^ 13 % 2 ^ 3 = 0
  omega

/-- The kernel addresses of the first block of page 0 lie in one piece of memory (20 R52, R74). -/
theorem toNat_physAddr_firstBlock {kind kind' : Access} {va : Word} (hzero : s.kernelAccess 0 kind) (ha : s.kernelAccess va kind')
    (hva : va.toNat < 64) : (s.physAddr .kernel va).toNat = (s.physAddr .kernel 0).toNat + va.toNat := by
  by_cases hon : mmuEnabled s.mmr0 = true
  · have hvalid : ∀ {x : Word} {k : Access}, s.kernelAccess x k →
        offsetValid s.cfg.mmuBounds (s.pdr .kernel (pageOf x)) (offsetOf x) = true := by
      rintro x k ⟨hreasons, -⟩
      obtain ⟨-, hvalid, -⟩ := (mmuReasons_eq_zero_iff ..).mp (hreasons hon)
      exact hvalid
    have hoff : (offsetOf va).toNat = va.toNat := by
      rw [toNat_offsetOf]
      omega
    have hpage : pageOf 0 = 0 := rfl
    have hstart : offsetOf 0 = 0 := rfl
    have hva' := hvalid ha
    have hzero' := hvalid hzero
    rw [pageOf_firstBlock hva] at hva'
    rw [hpage, hstart] at hzero'
    rw [State.physAddr, if_pos hon, State.physAddr, if_pos hon, pageOf_firstBlock hva, hpage, hstart,
      toNat_mmuMap_firstBlock hzero' hva' (by omega), hoff]
  · rw [State.physAddr, if_neg hon, State.physAddr, if_neg hon, fixedMap, fixedMap, if_pos (by bv_omega), if_pos (by decide)]
    rw [BitVec.toNat_setWidth, BitVec.toNat_setWidth, show (0 : Word).toNat = 0 from rfl]
    omega

/-- The state in which the red stack trap has its new PC: PSW and PC of the interrupted program at 2 and 0, KSP 0 (60 R248). -/
def State.redStacked (u : State) (oldPs oldPc : Word) : State :=
  { (u.kernelStore 2 oldPs).kernelStore 0 oldPc with ksp := 0 }

theorem mapsAs_redStacked (oldPs oldPc : Word) : MapsAs u (u.redStacked oldPs oldPc) :=
  have hstores := (mapsAs_kernelStore (s := u) (va := 2) oldPs).trans (mapsAs_kernelStore (va := 0) oldPc)
  { hstores with }

theorem KernelStored.redStacked {vas : List Word} (h : KernelStored vas s u) (oldPs oldPc : Word) :
    KernelStored (vas ++ [2] ++ [0]) s (u.redStacked oldPs oldPc) :=
  let t := (u.kernelStore 2 oldPs).kernelStore 0 oldPc
  ((h.store 2 oldPs).store 0 oldPc).control 0 t.pc t.psw t.yellowPending t.traceInhibit

/-- The two words of the emergency stack, and all else as it was (60 R248). -/
theorem redStacked_memory (oldPs oldPc : Word) (hwrite : ∀ va ∈ [0, 2], u.kernelAccess va .write) :
    let base := (u.physAddr .kernel 0).toNat
    let t := u.redStacked oldPs oldPc
    t.wordAt base = oldPc ∧ t.wordAt (base + 2) = oldPs ∧ ∀ a, a < base ∨ base + 4 ≤ a → t.byteAt a = u.byteAt a := by
  intro base t
  set v := u.kernelStore 2 oldPs with hv
  have htwo : (u.physAddr .kernel 2).toNat = base + 2 :=
    toNat_physAddr_firstBlock (hwrite 0 (by simp)) (hwrite 2 (by simp)) (by decide)
  have hbase : (v.physAddr .kernel 0).toNat = base := by rw [hv, (mapsAs_kernelStore oldPs).physAddr]
  have hsecond : ∀ a, a ≠ base → a ≠ base + 1 → t.byteAt a = v.byteAt a := fun a hlow hhigh =>
    kernelStore_byteAt_of_ne oldPc (hbase.symm ▸ hlow) (hbase.symm ▸ hhigh)
  refine ⟨?pc, ?ps, fun a ha => ?rest⟩
  case pc =>
    rw [← hbase]
    exact kernelStore_wordAt_same oldPc
  case ps =>
    rw [wordAt_of_byteAt (hsecond (base + 2) (by omega) (by omega)) (hsecond (base + 2 + 1) (by omega) (by omega)), ← htwo]
    exact kernelStore_wordAt_same oldPs
  case rest =>
    rw [hsecond a (by omega) (by omega)]
    exact kernelStore_byteAt_of_ne oldPs (by omega) (by omega)

/-- Where the kernel addresses 0 to 7 lie in memory, the red stack trap has its frame and its new PC and PS (60 R248). -/
theorem redStackEntry_memory (oldPs oldPc : Word) (hwrite : ∀ va ∈ [0, 2], u.kernelAccess va .write)
    (hread : ∀ va ∈ [4, 6], u.kernelAccess va .read) :
    let base := (u.physAddr .kernel 0).toNat
    redStackEntry oldPs oldPc u = .ok (u.wordAt (base + 4), u.wordAt (base + 6)) (u.redStacked oldPs oldPc) := by
  intro base
  obtain ⟨hit, hps⟩ := memWriteWordIn_kernel oldPs (by decide) (hwrite 2 (by simp))
  have hzero := (mapsAs_kernelStore (va := 2) oldPs).kernelAccess (hwrite 0 (by simp))
  obtain ⟨hit', hpc⟩ := memWriteWordIn_kernel oldPc (by decide) hzero
  have hmaps := mapsAs_redStacked (u := u) oldPs oldPc
  obtain ⟨-, -, hrest⟩ := redStacked_memory oldPs oldPc hwrite
  have hword : ∀ va : Word, 4 ≤ va.toNat → va.toNat < 64 → u.kernelAccess va .read →
      (u.redStacked oldPs oldPc).wordAt ((u.redStacked oldPs oldPc).physAddr .kernel va).toNat = u.wordAt (base + va.toNat) := by
    intro va habove hsmall ha
    rw [hmaps.physAddr, toNat_physAddr_firstBlock (hwrite 0 (by simp)) ha hsmall]
    exact wordAt_of_byteAt (hrest _ (by omega)) (hrest _ (by omega))
  have hfour := hword 4 (by decide) (by decide) (hread 4 (by simp))
  have hsix := hword 6 (by decide) (by decide) (hread 6 (by simp))
  have hfetch := vectorFetch_memory (n := 4) (by decide) fun va hva => hmaps.kernelAccess (hread va hva)
  rw [hfour, show (4 : Word) + 2 = 6 from rfl, hsix] at hfetch
  rw [redStackEntry, bind_of_ok hps, bind_of_ok hpc, bind_of_ok (modify_apply ..)]
  exact hfetch

/-- The red stack trap that has its frame and its vector runs through (60 R248). -/
theorem redStackTrap_of_ok {oldPs oldPc newPc newPs : Word} (h : redStackEntry oldPs oldPc s = .ok (newPc, newPs) u) :
    redStackTrap oldPs oldPc s =
      .next { u with psw := pswOfTrap oldPs newPs, pc := newPc, yellowPending := false, traceInhibit := false } := by
  simp only [redStackTrap, h]

theorem redStackTrap_of_error {oldPs oldPc : Word} {e : Exn} (h : redStackEntry oldPs oldPc s = .error (.raised e) u) :
    redStackTrap oldPs oldPc s = .fault .emergencyStackFailed := by
  simp only [redStackTrap, h]

/-- Both stores to the emergency stack go through page 0 (20 R70, R76). -/
theorem pushedThrough_emergencyStack {m : Word} {t : State} (henabled : mmuEnabled m = mmuEnabled s.mmr0)
    (h : pushedThrough [2, 0] { s with mmr0 := m } t) : pushedThrough [0] s t := by
  obtain ⟨hpar, huser, hkernel⟩ := h
  refine ⟨hpar, huser, fun page => (hkernel page).trans (if_congr ?_ rfl rfl)⟩
  change mmuEnabled m = true ∧ page ∈ [pageOf 0, pageOf 0] ↔ _
  rw [henabled]
  simp

/-! ## How a trap sequence ends -/

/-- A trap sequence that runs through ends in its next state (60 R241). -/
theorem trapAt_of_trapRuns {n : Word} {t : State} (h : TrapRuns n s t) : trapAt n s = .next t := by
  obtain ⟨newPc, newPs, s1, s2, hvector, hpushes, rfl⟩ := h
  exact trapAt_of_ok hvector hpushes

/-- A push that would put a reserved mode into the PSW is refused (10 R26). -/
theorem trapAt_of_push_refusal {n newPc newPs : Word} {s1 s2 : State} {r : Refusal} (hv : vectorFetch n s = .ok (newPc, newPs) s1)
    (hp : trapPushes (pswRead s.psw) s.pc { s1 with psw := pswOfTrap s.psw newPs } = .error (.refusal r) s2) :
    trapAt n s = .refused r := by
  simp only [trapAt, hv, hp]

end

end Sys2Proof.Machine
end

section
/-! The statements about traps that are settled (60_exceptions.md). -/

namespace Sys2Proof.Proofs

open Sys2Proof.Machine

/-- Settles O28: the vector is read, both pushes reach memory, and stores through the kernel's space leave the rest. -/
theorem trapSequenceSaves : Obligations.TrapSequenceSaves := by
  intro n s hn hksp hread hwrite hne psAt pcAt
  set newPc := s.wordAt (s.physAddr .kernel n).toNat
  set newPs := s.wordAt (s.physAddr .kernel (n + 2)).toNat with hnewPs
  set u := (({ s with psw := pswOfTrap s.psw newPs } : State).trapPushed (pswRead s.psw)).trapPushed s.pc with hu
  have hvector := vectorFetch_memory (n := n) (by omega) hread
  have hpushes := trapPushes_memory (s := { s with psw := pswOfTrap s.psw newPs }) (pswRead s.psw) s.pc hksp hwrite
  have hpsw : u.psw = pswOfTrap s.psw newPs := by rw [hu, trapPushed_psw, trapPushed_psw]
  have hsp : u.ksp = s.ksp - 4 := by
    rw [hu, trapPushed_ksp, trapPushed_ksp]
    bv_omega
  obtain ⟨hmode, hpm, hlow, hunused⟩ := fields_of_trapPsw hpsw
  obtain ⟨hpc, hps, hbytes⟩ := trapPushed_twice_memory (s := { s with psw := pswOfTrap s.psw newPs }) (pswRead s.psw) s.pc hne
  have hkept := (kernelStored_trapPushed_twice s (pswOfTrap s.psw newPs) (pswRead s.psw) s.pc).control u.ksp newPc u.psw false false
  rw [hnewPs, State.wordAt, lowByte_wordOf] at hlow
  exact ⟨_, trapAt_of_ok hvector hpushes, rfl, hmode, hpm, hlow, hunused, hsp, hpc, hps, hbytes, hkept.cells, hkept.paging, rfl, rfl,
    hkept.run, hkept.pending, hkept.dr, hkept.sr, hkept.switchMoves, hkept.mmr0, hkept.mmr2⟩

/-- Settles O29: the first push fails with KSP lowered and at most MMR0 changed; then the emergency stack and the vector at 004 lie in
memory. -/
theorem redStackTrapSaves : Obligations.RedStackTrapSaves := by
  intro n s hn hread hwrite hred hfails base
  set newPs := s.wordAt (s.physAddr .kernel (n + 2)).toNat
  have hvector := vectorFetch_memory (n := n) (by omega) hread
  have hpush : writeFails s .kernel (s.ksp - 2) := hfails.imp_left fun hodd => by bv_omega
  obtain ⟨e, m, hpushes, hmmr0⟩ := trapPushes_fails (s := { s with psw := pswOfTrap s.psw newPs }) (pswRead s.psw) s.pc hpush
  set u : State := { s with psw := pswOfTrap s.psw newPs, ksp := s.ksp - 2, mmr0 := m }
  have hmaps : MapsAs s u := { mapsAs_refl s with enabled := hmmr0.enabled }
  have hwrite' := fun va hva => hmaps.kernelAccess (hwrite va hva)
  have hbase : (u.physAddr .kernel 0).toNat = base := congrArg BitVec.toNat (hmaps.physAddr .kernel 0)
  have hentry := redStackEntry_memory (pswRead s.psw) s.pc hwrite' fun va hva => hmaps.kernelAccess (hred va hva)
  obtain ⟨hpc, hps, hbytes⟩ := redStacked_memory (pswRead s.psw) s.pc hwrite'
  simp only [hbase] at hentry hpc hps hbytes
  set v := u.redStacked (pswRead s.psw) s.pc
  set t : State :=
    { v with
      psw := pswOfTrap (pswRead s.psw) (u.wordAt (base + 6)), pc := u.wordAt (base + 4), yellowPending := false, traceInhibit := false }
  have htrap : trapAt n s = .next t := (trapAt_of_push_error hvector hpushes).trans (redStackTrap_of_ok hentry)
  obtain ⟨hmode, hpm, hlow, hunused⟩ := fields_of_trapPsw (t := t) rfl
  rw [pswCM_pswRead] at hpm
  rw [State.wordAt, lowByte_wordOf] at hlow
  have hloaded := (kernelStored_refl { s with mmr0 := m }).control (s.ksp - 2) s.pc u.psw s.yellowPending s.traceInhibit
  have hkept := (hloaded.redStacked (pswRead s.psw) s.pc).control v.ksp t.pc t.psw false false
  have hcells : cellsKept s t [some .ksp] := fun c hc => (hkept.cells c hc).trans (by cases c <;> rfl)
  exact ⟨t, htrap, rfl, hmode, hpm, hlow, hunused, rfl, hpc, hps, hbytes, hcells,
    pushedThrough_emergencyStack hmmr0.enabled hkept.paging, rfl, rfl, hkept.run, hkept.pending, hkept.dr, hkept.sr, hkept.switchMoves,
    fun hoff => hkept.mmr0.trans (hmmr0.off hoff), hkept.mmr2⟩

/-- Settles O30: the exception's trap, then the ends of a trap sequence one by one. -/
theorem exceptionsTrap : Obligations.ExceptionsTrap := by
  refine ⟨?leaves, fun n s => ⟨fun t => trapAt_of_trapRuns, fun e s1 => trapAt_of_vector_error, ?pushFails⟩⟩
  case leaves =>
    intro body s u e hbody n u'
    have hn : n = exnVector e := by cases e <;> rfl
    have htrap : runInstr body s = markTrap (trapAt n u') := by
      rw [runInstr_of_raised hbody, hn]
      rfl
    refine ⟨htrap, fun t hruns => ?_⟩
    rw [htrap, trapAt_of_trapRuns hruns]
    rfl
  case pushFails =>
    intro newPc newPs s1 s2 x hvector hpushes
    refine ⟨?refused, ?raised⟩
    case refused =>
      rintro r rfl
      exact trapAt_of_push_refusal hvector hpushes
    case raised =>
      rintro e rfl
      have hred : trapAt n s = redStackTrap (pswRead s.psw) s.pc s2 := trapAt_of_push_error hvector hpushes
      refine ⟨fun pc4 ps4 s3 hentry => ?_, fun e' s3 hentry => hred.trans (redStackTrap_of_error hentry)⟩
      rw [hred, redStackTrap_of_ok (oldPs := pswRead s.psw) hentry, pswOfTrap_pswRead]

/-- Settles O31: each of the four only raises its exception. -/
theorem trapInstructions : Obligations.TrapInstructions := fun _ _ =>
  ⟨trapsAt_of_raise (e := .breakpoint) rfl nofun, trapsAt_of_raise (e := .ioTrap) rfl nofun,
    trapsAt_of_raise (e := .emulatorTrap) rfl nofun, trapsAt_of_raise (e := .systemTrap) rfl nofun⟩

end Sys2Proof.Proofs
end
